-- ==== Sys2Proof/Word.lean ====
section
/-! DEFINITION. The two word types of the hardware (spec/00_scope.md R7: general registers are 8 bits,
pairs, `PC`, `SP` and addresses are 16 bits, the addressable unit is the 8-bit byte). -/

namespace Sys2Proof

/-- The addressable unit and the width of a general register (R7). -/
abbrev Byte := BitVec 8

/-- A register pair, the program counter, the stack pointer, an address (R7). -/
abbrev Word := BitVec 16

end Sys2Proof
end

