-- ==== Sys2Proof/Machine/Bits.lean ====
section
/-! DEFINITION. Bit fields, byte order and sign extension (spec/00_scope.md R11, R12; spec/20_memory.md R73). -/

namespace Sys2Proof.Machine

/-- `{hi, lo}` of R11: the 16-bit value `256*hi + lo`. -/
def word (hi lo : Byte) : Word := hi ++ lo

/-- `v[15:8]`. -/
def hiByte (v : Word) : Byte := v.extractLsb' 8 8

/-- `v[7:0]`. -/
def loByte (v : Word) : Byte := v.extractLsb' 0 8

/-- `sext_16` of R12. -/
def sext16 (b : Byte) : Word := b.signExtend 16

/-- `v[i]` of R11, the single bit `i`, as a Boolean. -/
def bit (v : Byte) (i : Nat) : Bool := v.getLsbD i

/-- A byte of which bit `i` is `c` and every other bit 0 (the weight of a flag in a packed register). -/
def bitAt (c : Bool) (i : Nat) : Byte := if c then 1#8 <<< i else 0#8

/-- `0xFF00 + n` of R129, the high page. -/
def highPage (n : Byte) : Word := word 0xFF#8 n

end Sys2Proof.Machine
end

