-- ==== Sys2Proof/Syntax.lean ====
section
/-! DEFINITION. The instructions: the operand names of spec/30_encoding.md R123 to R126 and R130 to R132, the
instruction forms the rules are written for (the `form` column of spec/opcode_table.json), and `Instr`, one
constructor for each of the table's 512 rows. -/

namespace Sys2Proof

/-- The 8-bit registers that have a number (R123; number 6 is the memory operand `(HL)`, not a register). -/
inductive Reg8 where
  | b | c | d | e | h | l | a
  deriving DecidableEq, Repr

/-- The 16-bit registers of field `rr` (R124). -/
inductive Reg16 where
  | bc | de | hl | sp
  deriving DecidableEq, Repr

/-- The pairs of field `qq` that are pairs of general registers (R125; number 3 is `AF`, which has rules of its own). -/
inductive StackPair where
  | bc | de | hl
  deriving DecidableEq, Repr

/-- The conditions of field `cc` (R126). -/
inductive Cond where
  | nz | z | nc | c
  deriving DecidableEq, Repr

/-- The ALU operations in the order of their numbers (R130). -/
inductive AluOp where
  | add | adc | sub | sbc | and | xor | or | cp
  deriving DecidableEq, Repr

/-- The rotate and shift operations in the order of their numbers (R131). -/
inductive RotOp where
  | rlc | rrc | rl | rr | sla | sra | swap | srl
  deriving DecidableEq, Repr

/-- A bit number `b` of `BIT`, `RES`, `SET` (R131). -/
inductive BitNo where
  | n0 | n1 | n2 | n3 | n4 | n5 | n6 | n7
  deriving DecidableEq, Repr

/-- A restart target (R310), named by its address. -/
inductive RstTarget where
  | t00 | t08 | t10 | t18 | t20 | t28 | t30 | t38
  deriving DecidableEq, Repr

/-- The eleven first bytes that select no instruction (R132), named by their value. -/
inductive IllegalByte where
  | xD3 | xDB | xDD | xE3 | xE4 | xEB | xEC | xED | xF4 | xFC | xFD
  deriving DecidableEq, Repr

/-- The instruction forms: the instructions as the rules R160 to R326 are written, with operand fields. -/
inductive Form where
  | ldReg (dst src : Reg8) | ldImm (dst : Reg8) (imm : Byte) | ldFromHl (dst : Reg8) | ldToHl (src : Reg8)
  | ldToHlImm (imm : Byte) | ldAFromBc | ldAFromDe | ldToBcA | ldToDeA
  | ldAFromAbs (addr : Word) | ldToAbsA (addr : Word) | ldhAFromImm (lo : Byte) | ldhToImmA (lo : Byte)
  | ldhAFromC | ldhToCA | ldToHlIncA | ldAFromHlInc | ldToHlDecA | ldAFromHlDec
  | ldPair (dst : Reg16) (imm : Word) | ldToAbsSp (addr : Word) | ldSpHl | ldHlSp (off : Byte)
  | push (src : StackPair) | pushAf | pop (dst : StackPair) | popAf
  | alu (op : AluOp) (src : Reg8) | aluAtHl (op : AluOp) | aluImm (op : AluOp) (imm : Byte)
  | incReg (dst : Reg8) | incAtHl | decReg (dst : Reg8) | decAtHl | daa | cpl | scf | ccf
  | addHl (src : Reg16) | incPair (dst : Reg16) | decPair (dst : Reg16) | addSp (off : Byte)
  | rlca | rrca | rla | rra | rot (op : RotOp) (dst : Reg8) | rotAtHl (op : RotOp)
  | bit (n : BitNo) (src : Reg8) | bitAtHl (n : BitNo) | res (n : BitNo) (dst : Reg8) | resAtHl (n : BitNo)
  | set (n : BitNo) (dst : Reg8) | setAtHl (n : BitNo)
  | jp (addr : Word) | jpIf (cc : Cond) (addr : Word) | jpHl | jr (off : Byte) | jrIf (cc : Cond) (off : Byte)
  | call (addr : Word) | callIf (cc : Cond) (addr : Word) | ret | retIf (cc : Cond) | reti | rst (target : RstTarget)
  | nop | halt | stop (second : Byte) | di | ei | prefixCb (op2 : Byte) | illegal (op : IllegalByte)
  deriving DecidableEq, Repr

/-- The instructions: one constructor for each row of spec/opcode_table.json, the rows
with operand bytes first (Lean's compiler bounds the position of a constructor that has fields), each part in
the table's order. The name is the row's mnemonic; `AtHl` stands for the operand `(HL)`. A constructor carries the operand bytes that the
row's format has (R121): `imm` is `d8` or `d16`, `off` is `e8`, `lo` is `a8`, `addr` is `a16`. -/
inductive Instr where
  | ldBcD16 (imm : Word)
  | ldBD8 (imm : Byte)
  | ldAtA16Sp (addr : Word)
  | ldCD8 (imm : Byte)
  | stop (second : Byte)
  | ldDeD16 (imm : Word)
  | ldDD8 (imm : Byte)
  | jrE8 (off : Byte)
  | ldED8 (imm : Byte)
  | jrNzE8 (off : Byte)
  | ldHlD16 (imm : Word)
  | ldHD8 (imm : Byte)
  | jrZE8 (off : Byte)
  | ldLD8 (imm : Byte)
  | jrNcE8 (off : Byte)
  | ldSpD16 (imm : Word)
  | ldAtHlD8 (imm : Byte)
  | jrCE8 (off : Byte)
  | ldAD8 (imm : Byte)
  | jpNzA16 (addr : Word)
  | jpA16 (addr : Word)
  | callNzA16 (addr : Word)
  | addAD8 (imm : Byte)
  | jpZA16 (addr : Word)
  | prefixCb (op2 : Byte)
  | callZA16 (addr : Word)
  | callA16 (addr : Word)
  | adcAD8 (imm : Byte)
  | jpNcA16 (addr : Word)
  | callNcA16 (addr : Word)
  | subD8 (imm : Byte)
  | jpCA16 (addr : Word)
  | callCA16 (addr : Word)
  | sbcAD8 (imm : Byte)
  | ldhAtA8A (lo : Byte)
  | andD8 (imm : Byte)
  | addSpE8 (off : Byte)
  | ldAtA16A (addr : Word)
  | xorD8 (imm : Byte)
  | ldhAAtA8 (lo : Byte)
  | orD8 (imm : Byte)
  | ldHlSpE8 (off : Byte)
  | ldAAtA16 (addr : Word)
  | cpD8 (imm : Byte)
  | nop
  | ldAtBcA
  | incBc
  | incB
  | decB
  | rlca
  | addHlBc
  | ldAAtBc
  | decBc
  | incC
  | decC
  | rrca
  | ldAtDeA
  | incDe
  | incD
  | decD
  | rla
  | addHlDe
  | ldAAtDe
  | decDe
  | incE
  | decE
  | rra
  | ldAtHlIncA
  | incHl
  | incH
  | decH
  | daa
  | addHlHl
  | ldAAtHlInc
  | decHl
  | incL
  | decL
  | cpl
  | ldAtHlDecA
  | incSp
  | incAtHl
  | decAtHl
  | scf
  | addHlSp
  | ldAAtHlDec
  | decSp
  | incA
  | decA
  | ccf
  | ldBB
  | ldBC
  | ldBD
  | ldBE
  | ldBH
  | ldBL
  | ldBAtHl
  | ldBA
  | ldCB
  | ldCC
  | ldCD
  | ldCE
  | ldCH
  | ldCL
  | ldCAtHl
  | ldCA
  | ldDB
  | ldDC
  | ldDD
  | ldDE
  | ldDH
  | ldDL
  | ldDAtHl
  | ldDA
  | ldEB
  | ldEC
  | ldED
  | ldEE
  | ldEH
  | ldEL
  | ldEAtHl
  | ldEA
  | ldHB
  | ldHC
  | ldHD
  | ldHE
  | ldHH
  | ldHL
  | ldHAtHl
  | ldHA
  | ldLB
  | ldLC
  | ldLD
  | ldLE
  | ldLH
  | ldLL
  | ldLAtHl
  | ldLA
  | ldAtHlB
  | ldAtHlC
  | ldAtHlD
  | ldAtHlE
  | ldAtHlH
  | ldAtHlL
  | halt
  | ldAtHlA
  | ldAB
  | ldAC
  | ldAD
  | ldAE
  | ldAH
  | ldAL
  | ldAAtHl
  | ldAA
  | addAB
  | addAC
  | addAD
  | addAE
  | addAH
  | addAL
  | addAAtHl
  | addAA
  | adcAB
  | adcAC
  | adcAD
  | adcAE
  | adcAH
  | adcAL
  | adcAAtHl
  | adcAA
  | subB
  | subC
  | subD
  | subE
  | subH
  | subL
  | subAtHl
  | subA
  | sbcAB
  | sbcAC
  | sbcAD
  | sbcAE
  | sbcAH
  | sbcAL
  | sbcAAtHl
  | sbcAA
  | andB
  | andC
  | andD
  | andE
  | andH
  | andL
  | andAtHl
  | andA
  | xorB
  | xorC
  | xorD
  | xorE
  | xorH
  | xorL
  | xorAtHl
  | xorA
  | orB
  | orC
  | orD
  | orE
  | orH
  | orL
  | orAtHl
  | orA
  | cpB
  | cpC
  | cpD
  | cpE
  | cpH
  | cpL
  | cpAtHl
  | cpA
  | retNz
  | popBc
  | pushBc
  | rst00
  | retZ
  | ret
  | rst08
  | retNc
  | popDe
  | illegalD3
  | pushDe
  | rst10
  | retC
  | reti
  | illegalDB
  | illegalDD
  | rst18
  | popHl
  | ldhAtCA
  | illegalE3
  | illegalE4
  | pushHl
  | rst20
  | jpHl
  | illegalEB
  | illegalEC
  | illegalED
  | rst28
  | popAf
  | ldhAAtC
  | di
  | illegalF4
  | pushAf
  | rst30
  | ldSpHl
  | ei
  | illegalFC
  | illegalFD
  | rst38
  | rlcB
  | rlcC
  | rlcD
  | rlcE
  | rlcH
  | rlcL
  | rlcAtHl
  | rlcA
  | rrcB
  | rrcC
  | rrcD
  | rrcE
  | rrcH
  | rrcL
  | rrcAtHl
  | rrcA
  | rlB
  | rlC
  | rlD
  | rlE
  | rlH
  | rlL
  | rlAtHl
  | rlA
  | rrB
  | rrC
  | rrD
  | rrE
  | rrH
  | rrL
  | rrAtHl
  | rrA
  | slaB
  | slaC
  | slaD
  | slaE
  | slaH
  | slaL
  | slaAtHl
  | slaA
  | sraB
  | sraC
  | sraD
  | sraE
  | sraH
  | sraL
  | sraAtHl
  | sraA
  | swapB
  | swapC
  | swapD
  | swapE
  | swapH
  | swapL
  | swapAtHl
  | swapA
  | srlB
  | srlC
  | srlD
  | srlE
  | srlH
  | srlL
  | srlAtHl
  | srlA
  | bit0B
  | bit0C
  | bit0D
  | bit0E
  | bit0H
  | bit0L
  | bit0AtHl
  | bit0A
  | bit1B
  | bit1C
  | bit1D
  | bit1E
  | bit1H
  | bit1L
  | bit1AtHl
  | bit1A
  | bit2B
  | bit2C
  | bit2D
  | bit2E
  | bit2H
  | bit2L
  | bit2AtHl
  | bit2A
  | bit3B
  | bit3C
  | bit3D
  | bit3E
  | bit3H
  | bit3L
  | bit3AtHl
  | bit3A
  | bit4B
  | bit4C
  | bit4D
  | bit4E
  | bit4H
  | bit4L
  | bit4AtHl
  | bit4A
  | bit5B
  | bit5C
  | bit5D
  | bit5E
  | bit5H
  | bit5L
  | bit5AtHl
  | bit5A
  | bit6B
  | bit6C
  | bit6D
  | bit6E
  | bit6H
  | bit6L
  | bit6AtHl
  | bit6A
  | bit7B
  | bit7C
  | bit7D
  | bit7E
  | bit7H
  | bit7L
  | bit7AtHl
  | bit7A
  | res0B
  | res0C
  | res0D
  | res0E
  | res0H
  | res0L
  | res0AtHl
  | res0A
  | res1B
  | res1C
  | res1D
  | res1E
  | res1H
  | res1L
  | res1AtHl
  | res1A
  | res2B
  | res2C
  | res2D
  | res2E
  | res2H
  | res2L
  | res2AtHl
  | res2A
  | res3B
  | res3C
  | res3D
  | res3E
  | res3H
  | res3L
  | res3AtHl
  | res3A
  | res4B
  | res4C
  | res4D
  | res4E
  | res4H
  | res4L
  | res4AtHl
  | res4A
  | res5B
  | res5C
  | res5D
  | res5E
  | res5H
  | res5L
  | res5AtHl
  | res5A
  | res6B
  | res6C
  | res6D
  | res6E
  | res6H
  | res6L
  | res6AtHl
  | res6A
  | res7B
  | res7C
  | res7D
  | res7E
  | res7H
  | res7L
  | res7AtHl
  | res7A
  | set0B
  | set0C
  | set0D
  | set0E
  | set0H
  | set0L
  | set0AtHl
  | set0A
  | set1B
  | set1C
  | set1D
  | set1E
  | set1H
  | set1L
  | set1AtHl
  | set1A
  | set2B
  | set2C
  | set2D
  | set2E
  | set2H
  | set2L
  | set2AtHl
  | set2A
  | set3B
  | set3C
  | set3D
  | set3E
  | set3H
  | set3L
  | set3AtHl
  | set3A
  | set4B
  | set4C
  | set4D
  | set4E
  | set4H
  | set4L
  | set4AtHl
  | set4A
  | set5B
  | set5C
  | set5D
  | set5E
  | set5H
  | set5L
  | set5AtHl
  | set5A
  | set6B
  | set6C
  | set6D
  | set6E
  | set6H
  | set6L
  | set6AtHl
  | set6A
  | set7B
  | set7C
  | set7D
  | set7E
  | set7H
  | set7L
  | set7AtHl
  | set7A
  deriving DecidableEq, Repr

end Sys2Proof
end

