-- ==== Sys2Proof/Decode.lean ====
section
/-! DEFINITION. The decoder of spec/30_encoding.md (R120 to R137), total on every byte sequence, then the
encoder, written from the opcode maps R130 and R131. -/

namespace Sys2Proof

/-- Why a byte sequence is not decoded. Every complete sequence decodes (R130, R131: all 512 cells have a row). -/
inductive DecodeError where
  /-- there is no first byte -/
  | noByte
  /-- the first byte `op` asks for more operand bytes than follow it (R120) -/
  | truncated (op : Byte)
  deriving DecidableEq, Repr

namespace Decode

/-- Field `x` of R122, `op[7:6]`. -/
def fieldX (op : Byte) : Nat := op.toNat / 64

/-- Field `y` of R122, `op[5:3]`. -/
def fieldY (op : Byte) : Nat := op.toNat / 8 % 8

/-- Field `z` of R122, `op[2:0]`. -/
def fieldZ (op : Byte) : Nat := op.toNat % 8

/-- Field `p` of R122, `op[5:4]`. -/
def fieldP (op : Byte) : Nat := op.toNat / 16 % 4

/-- Field `q` of R122, `op[3]`. -/
def fieldQ (op : Byte) : Nat := op.toNat / 8 % 2

/-- R123; `none` is number 6, the memory operand `(HL)`. -/
def reg8 : Nat → Option Reg8
  | 0 => some .b | 1 => some .c | 2 => some .d | 3 => some .e | 4 => some .h | 5 => some .l | 6 => none | _ => some .a

/-- R124. -/
def reg16 : Nat → Reg16
  | 0 => .bc | 1 => .de | 2 => .hl | _ => .sp

/-- R126. -/
def cond : Nat → Cond
  | 0 => .nz | 1 => .z | 2 => .nc | _ => .c

/-- ALU operation numbers, R130. -/
def aluOp : Nat → AluOp
  | 0 => .add | 1 => .adc | 2 => .sub | 3 => .sbc | 4 => .and | 5 => .xor | 6 => .or | _ => .cp

/-- Rotate and shift operation numbers, R131. -/
def rotOp : Nat → RotOp
  | 0 => .rlc | 1 => .rrc | 2 => .rl | 3 => .rr | 4 => .sla | 5 => .sra | 6 => .swap | _ => .srl

/-- Bit numbers, R131. -/
def bitNo : Nat → BitNo
  | 0 => .n0 | 1 => .n1 | 2 => .n2 | 3 => .n3 | 4 => .n4 | 5 => .n5 | 6 => .n6 | _ => .n7

/-- Restart targets, R310. -/
def rstTarget : Nat → RstTarget
  | 0 => .t00 | 1 => .t08 | 2 => .t10 | 3 => .t18 | 4 => .t20 | 5 => .t28 | 6 => .t30 | _ => .t38

/-- The second-byte map after `0xCB` (R131, last line of R137). -/
def cbForm (op2 : Byte) : Form :=
  match fieldX op2, reg8 (fieldZ op2) with
  | 0, some r => .rot (rotOp (fieldY op2)) r
  | 0, none => .rotAtHl (rotOp (fieldY op2))
  | 1, some r => .bit (bitNo (fieldY op2)) r
  | 1, none => .bitAtHl (bitNo (fieldY op2))
  | 2, some r => .res (bitNo (fieldY op2)) r
  | 2, none => .resAtHl (bitNo (fieldY op2))
  | _, some r => .set (bitNo (fieldY op2)) r
  | _, none => .setAtHl (bitNo (fieldY op2))

/-- Quadrant `x = 0` of R137. -/
def quadrant0 (op b1 b2 : Byte) : Form :=
  match fieldZ op with
  | 0 => match fieldY op with
    | 0 => .nop
    | 1 => .ldToAbsSp (Machine.word b2 b1)
    | 2 => .stop b1
    | 3 => .jr b1
    | y => .jrIf (cond (y - 4)) b1
  | 1 => match fieldQ op with
    | 0 => .ldPair (reg16 (fieldP op)) (Machine.word b2 b1)
    | _ => .addHl (reg16 (fieldP op))
  | 2 => match fieldQ op, fieldP op with
    | 0, 0 => .ldToBcA
    | 0, 1 => .ldToDeA
    | 0, 2 => .ldToHlIncA
    | 0, _ => .ldToHlDecA
    | _, 0 => .ldAFromBc
    | _, 1 => .ldAFromDe
    | _, 2 => .ldAFromHlInc
    | _, _ => .ldAFromHlDec
  | 3 => match fieldQ op with
    | 0 => .incPair (reg16 (fieldP op))
    | _ => .decPair (reg16 (fieldP op))
  | 4 => match reg8 (fieldY op) with
    | some r => .incReg r
    | none => .incAtHl
  | 5 => match reg8 (fieldY op) with
    | some r => .decReg r
    | none => .decAtHl
  | 6 => match reg8 (fieldY op) with
    | some r => .ldImm r b1
    | none => .ldToHlImm b1
  | _ => match fieldY op with
    | 0 => .rlca
    | 1 => .rrca
    | 2 => .rla
    | 3 => .rra
    | 4 => .daa
    | 5 => .cpl
    | 6 => .scf
    | _ => .ccf

/-- Quadrant `x = 1` of R137: `LD r,s`, with `0x76` (both numbers 6) being `HALT`. -/
def quadrant1 (op : Byte) : Form :=
  match reg8 (fieldY op), reg8 (fieldZ op) with
  | some r, some s => .ldReg r s
  | some r, none => .ldFromHl r
  | none, some s => .ldToHl s
  | none, none => .halt

/-- Quadrant `x = 2` of R137: the ALU operations on `r[z]`. -/
def quadrant2 (op : Byte) : Form :=
  match reg8 (fieldZ op) with
  | some r => .alu (aluOp (fieldY op)) r
  | none => .aluAtHl (aluOp (fieldY op))

/-- Quadrant `x = 3` of R137; the eleven illegal bytes are R132. -/
def quadrant3 (op b1 b2 : Byte) : Form :=
  match fieldZ op with
  | 0 => match fieldY op with
    | 4 => .ldhToImmA b1
    | 5 => .addSp b1
    | 6 => .ldhAFromImm b1
    | 7 => .ldHlSp b1
    | y => .retIf (cond y)
  | 1 => match fieldQ op, fieldP op with
    | 0, 0 => .pop .bc
    | 0, 1 => .pop .de
    | 0, 2 => .pop .hl
    | 0, _ => .popAf
    | _, 0 => .ret
    | _, 1 => .reti
    | _, 2 => .jpHl
    | _, _ => .ldSpHl
  | 2 => match fieldY op with
    | 4 => .ldhToCA
    | 5 => .ldToAbsA (Machine.word b2 b1)
    | 6 => .ldhAFromC
    | 7 => .ldAFromAbs (Machine.word b2 b1)
    | y => .jpIf (cond y) (Machine.word b2 b1)
  | 3 => match fieldY op with
    | 0 => .jp (Machine.word b2 b1)
    | 1 => cbForm b1
    | 2 => .illegal .xD3
    | 3 => .illegal .xDB
    | 4 => .illegal .xE3
    | 5 => .illegal .xEB
    | 6 => .di
    | _ => .ei
  | 4 => match fieldY op with
    | 4 => .illegal .xE4
    | 5 => .illegal .xEC
    | 6 => .illegal .xF4
    | 7 => .illegal .xFC
    | y => .callIf (cond y) (Machine.word b2 b1)
  | 5 => match fieldQ op, fieldP op with
    | 0, 0 => .push .bc
    | 0, 1 => .push .de
    | 0, 2 => .push .hl
    | 0, _ => .pushAf
    | _, 0 => .call (Machine.word b2 b1)
    | _, 1 => .illegal .xDD
    | _, 2 => .illegal .xED
    | _, _ => .illegal .xFD
  | 6 => .aluImm (aluOp (fieldY op)) b1
  | _ => .rst (rstTarget (fieldY op))

/-- The decoding algorithm R137 on the opcode byte and the two bytes after it; a form that has fewer operand
bytes does not look at the others. -/
def formOf (op b1 b2 : Byte) : Form :=
  match fieldX op with
  | 0 => quadrant0 op b1 b2
  | 1 => quadrant1 op
  | 2 => quadrant2 op
  | _ => quadrant3 op b1 b2

/-- How many operand bytes follow the opcode byte: the length of R121 less one, "a function of the opcode byte
alone (and is 2 for every instruction that begins with the prefix byte 0xCB)" (R120, R134). -/
def operandCount (op : Byte) : Nat :=
  match fieldX op, fieldZ op with
  | 0, 0 => match fieldY op with
    | 0 => 0
    | 1 => 2
    | _ => 1
  | 0, 1 => if fieldQ op = 0 then 2 else 0
  | 0, 6 => 1
  | 3, 0 => if fieldY op < 4 then 0 else 1
  | 3, 2 => match fieldY op with
    | 4 => 0
    | 6 => 0
    | _ => 2
  | 3, 3 => match fieldY op with
    | 0 => 2
    | 1 => 1
    | _ => 0
  | 3, 4 => if fieldY op < 4 then 2 else 0
  | 3, 5 => if fieldQ op = 1 ∧ fieldP op = 0 then 2 else 0
  | 3, 6 => 1
  | _, _ => 0

end Decode

/-- The row of spec/opcode_table.json that a form with its operand fields is (its `form` and `fields` columns). -/
def Form.toInstr : Form → Instr
  | .nop => .nop
  | .ldPair .bc imm => .ldBcD16 imm | .ldPair .de imm => .ldDeD16 imm | .ldPair .hl imm => .ldHlD16 imm | .ldPair .sp imm => .ldSpD16 imm
  | .ldToBcA => .ldAtBcA
  | .incPair .bc => .incBc | .incPair .de => .incDe | .incPair .hl => .incHl | .incPair .sp => .incSp
  | .incReg .b => .incB | .incReg .c => .incC | .incReg .d => .incD | .incReg .e => .incE
  | .incReg .h => .incH | .incReg .l => .incL | .incReg .a => .incA
  | .decReg .b => .decB | .decReg .c => .decC | .decReg .d => .decD | .decReg .e => .decE
  | .decReg .h => .decH | .decReg .l => .decL | .decReg .a => .decA
  | .ldImm .b imm => .ldBD8 imm | .ldImm .c imm => .ldCD8 imm | .ldImm .d imm => .ldDD8 imm | .ldImm .e imm => .ldED8 imm
  | .ldImm .h imm => .ldHD8 imm | .ldImm .l imm => .ldLD8 imm | .ldImm .a imm => .ldAD8 imm
  | .rlca => .rlca
  | .ldToAbsSp addr => .ldAtA16Sp addr
  | .addHl .bc => .addHlBc | .addHl .de => .addHlDe | .addHl .hl => .addHlHl | .addHl .sp => .addHlSp
  | .ldAFromBc => .ldAAtBc
  | .decPair .bc => .decBc | .decPair .de => .decDe | .decPair .hl => .decHl | .decPair .sp => .decSp
  | .rrca => .rrca
  | .stop second => .stop second
  | .ldToDeA => .ldAtDeA
  | .rla => .rla
  | .jr off => .jrE8 off
  | .ldAFromDe => .ldAAtDe
  | .rra => .rra
  | .jrIf .nz off => .jrNzE8 off | .jrIf .z off => .jrZE8 off | .jrIf .nc off => .jrNcE8 off | .jrIf .c off => .jrCE8 off
  | .ldToHlIncA => .ldAtHlIncA
  | .daa => .daa
  | .ldAFromHlInc => .ldAAtHlInc
  | .cpl => .cpl
  | .ldToHlDecA => .ldAtHlDecA
  | .incAtHl => .incAtHl
  | .decAtHl => .decAtHl
  | .ldToHlImm imm => .ldAtHlD8 imm
  | .scf => .scf
  | .ldAFromHlDec => .ldAAtHlDec
  | .ccf => .ccf
  | .ldReg .b .b => .ldBB | .ldReg .b .c => .ldBC | .ldReg .b .d => .ldBD | .ldReg .b .e => .ldBE
  | .ldReg .b .h => .ldBH | .ldReg .b .l => .ldBL | .ldReg .b .a => .ldBA | .ldReg .c .b => .ldCB
  | .ldReg .c .c => .ldCC | .ldReg .c .d => .ldCD | .ldReg .c .e => .ldCE | .ldReg .c .h => .ldCH
  | .ldReg .c .l => .ldCL | .ldReg .c .a => .ldCA | .ldReg .d .b => .ldDB | .ldReg .d .c => .ldDC
  | .ldReg .d .d => .ldDD | .ldReg .d .e => .ldDE | .ldReg .d .h => .ldDH | .ldReg .d .l => .ldDL
  | .ldReg .d .a => .ldDA | .ldReg .e .b => .ldEB | .ldReg .e .c => .ldEC | .ldReg .e .d => .ldED
  | .ldReg .e .e => .ldEE | .ldReg .e .h => .ldEH | .ldReg .e .l => .ldEL | .ldReg .e .a => .ldEA
  | .ldReg .h .b => .ldHB | .ldReg .h .c => .ldHC | .ldReg .h .d => .ldHD | .ldReg .h .e => .ldHE
  | .ldReg .h .h => .ldHH | .ldReg .h .l => .ldHL | .ldReg .h .a => .ldHA | .ldReg .l .b => .ldLB
  | .ldReg .l .c => .ldLC | .ldReg .l .d => .ldLD | .ldReg .l .e => .ldLE | .ldReg .l .h => .ldLH
  | .ldReg .l .l => .ldLL | .ldReg .l .a => .ldLA | .ldReg .a .b => .ldAB | .ldReg .a .c => .ldAC
  | .ldReg .a .d => .ldAD | .ldReg .a .e => .ldAE | .ldReg .a .h => .ldAH | .ldReg .a .l => .ldAL
  | .ldReg .a .a => .ldAA
  | .ldFromHl .b => .ldBAtHl | .ldFromHl .c => .ldCAtHl | .ldFromHl .d => .ldDAtHl | .ldFromHl .e => .ldEAtHl
  | .ldFromHl .h => .ldHAtHl | .ldFromHl .l => .ldLAtHl | .ldFromHl .a => .ldAAtHl
  | .ldToHl .b => .ldAtHlB | .ldToHl .c => .ldAtHlC | .ldToHl .d => .ldAtHlD | .ldToHl .e => .ldAtHlE
  | .ldToHl .h => .ldAtHlH | .ldToHl .l => .ldAtHlL | .ldToHl .a => .ldAtHlA
  | .halt => .halt
  | .alu .add .b => .addAB | .alu .add .c => .addAC | .alu .add .d => .addAD | .alu .add .e => .addAE
  | .alu .add .h => .addAH | .alu .add .l => .addAL | .alu .add .a => .addAA | .alu .adc .b => .adcAB
  | .alu .adc .c => .adcAC | .alu .adc .d => .adcAD | .alu .adc .e => .adcAE | .alu .adc .h => .adcAH
  | .alu .adc .l => .adcAL | .alu .adc .a => .adcAA | .alu .sub .b => .subB | .alu .sub .c => .subC
  | .alu .sub .d => .subD | .alu .sub .e => .subE | .alu .sub .h => .subH | .alu .sub .l => .subL
  | .alu .sub .a => .subA | .alu .sbc .b => .sbcAB | .alu .sbc .c => .sbcAC | .alu .sbc .d => .sbcAD
  | .alu .sbc .e => .sbcAE | .alu .sbc .h => .sbcAH | .alu .sbc .l => .sbcAL | .alu .sbc .a => .sbcAA
  | .alu .and .b => .andB | .alu .and .c => .andC | .alu .and .d => .andD | .alu .and .e => .andE
  | .alu .and .h => .andH | .alu .and .l => .andL | .alu .and .a => .andA | .alu .xor .b => .xorB
  | .alu .xor .c => .xorC | .alu .xor .d => .xorD | .alu .xor .e => .xorE | .alu .xor .h => .xorH
  | .alu .xor .l => .xorL | .alu .xor .a => .xorA | .alu .or .b => .orB | .alu .or .c => .orC
  | .alu .or .d => .orD | .alu .or .e => .orE | .alu .or .h => .orH | .alu .or .l => .orL
  | .alu .or .a => .orA | .alu .cp .b => .cpB | .alu .cp .c => .cpC | .alu .cp .d => .cpD
  | .alu .cp .e => .cpE | .alu .cp .h => .cpH | .alu .cp .l => .cpL | .alu .cp .a => .cpA
  | .aluAtHl .add => .addAAtHl | .aluAtHl .adc => .adcAAtHl | .aluAtHl .sub => .subAtHl | .aluAtHl .sbc => .sbcAAtHl
  | .aluAtHl .and => .andAtHl | .aluAtHl .xor => .xorAtHl | .aluAtHl .or => .orAtHl | .aluAtHl .cp => .cpAtHl
  | .retIf .nz => .retNz | .retIf .z => .retZ | .retIf .nc => .retNc | .retIf .c => .retC
  | .pop .bc => .popBc | .pop .de => .popDe | .pop .hl => .popHl
  | .jpIf .nz addr => .jpNzA16 addr | .jpIf .z addr => .jpZA16 addr | .jpIf .nc addr => .jpNcA16 addr | .jpIf .c addr => .jpCA16 addr
  | .jp addr => .jpA16 addr
  | .callIf .nz addr => .callNzA16 addr | .callIf .z addr => .callZA16 addr | .callIf .nc addr => .callNcA16 addr | .callIf .c addr => .callCA16 addr
  | .push .bc => .pushBc | .push .de => .pushDe | .push .hl => .pushHl
  | .aluImm .add imm => .addAD8 imm | .aluImm .adc imm => .adcAD8 imm | .aluImm .sub imm => .subD8 imm | .aluImm .sbc imm => .sbcAD8 imm
  | .aluImm .and imm => .andD8 imm | .aluImm .xor imm => .xorD8 imm | .aluImm .or imm => .orD8 imm | .aluImm .cp imm => .cpD8 imm
  | .rst .t00 => .rst00 | .rst .t08 => .rst08 | .rst .t10 => .rst10 | .rst .t18 => .rst18
  | .rst .t20 => .rst20 | .rst .t28 => .rst28 | .rst .t30 => .rst30 | .rst .t38 => .rst38
  | .ret => .ret
  | .prefixCb op2 => .prefixCb op2
  | .call addr => .callA16 addr
  | .illegal .xD3 => .illegalD3 | .illegal .xDB => .illegalDB | .illegal .xDD => .illegalDD | .illegal .xE3 => .illegalE3
  | .illegal .xE4 => .illegalE4 | .illegal .xEB => .illegalEB | .illegal .xEC => .illegalEC | .illegal .xED => .illegalED
  | .illegal .xF4 => .illegalF4 | .illegal .xFC => .illegalFC | .illegal .xFD => .illegalFD
  | .reti => .reti
  | .ldhToImmA lo => .ldhAtA8A lo
  | .ldhToCA => .ldhAtCA
  | .addSp off => .addSpE8 off
  | .jpHl => .jpHl
  | .ldToAbsA addr => .ldAtA16A addr
  | .ldhAFromImm lo => .ldhAAtA8 lo
  | .popAf => .popAf
  | .ldhAFromC => .ldhAAtC
  | .di => .di
  | .pushAf => .pushAf
  | .ldHlSp off => .ldHlSpE8 off
  | .ldSpHl => .ldSpHl
  | .ldAFromAbs addr => .ldAAtA16 addr
  | .ei => .ei
  | .rot .rlc .b => .rlcB | .rot .rlc .c => .rlcC | .rot .rlc .d => .rlcD | .rot .rlc .e => .rlcE
  | .rot .rlc .h => .rlcH | .rot .rlc .l => .rlcL | .rot .rlc .a => .rlcA | .rot .rrc .b => .rrcB
  | .rot .rrc .c => .rrcC | .rot .rrc .d => .rrcD | .rot .rrc .e => .rrcE | .rot .rrc .h => .rrcH
  | .rot .rrc .l => .rrcL | .rot .rrc .a => .rrcA | .rot .rl .b => .rlB | .rot .rl .c => .rlC
  | .rot .rl .d => .rlD | .rot .rl .e => .rlE | .rot .rl .h => .rlH | .rot .rl .l => .rlL
  | .rot .rl .a => .rlA | .rot .rr .b => .rrB | .rot .rr .c => .rrC | .rot .rr .d => .rrD
  | .rot .rr .e => .rrE | .rot .rr .h => .rrH | .rot .rr .l => .rrL | .rot .rr .a => .rrA
  | .rot .sla .b => .slaB | .rot .sla .c => .slaC | .rot .sla .d => .slaD | .rot .sla .e => .slaE
  | .rot .sla .h => .slaH | .rot .sla .l => .slaL | .rot .sla .a => .slaA | .rot .sra .b => .sraB
  | .rot .sra .c => .sraC | .rot .sra .d => .sraD | .rot .sra .e => .sraE | .rot .sra .h => .sraH
  | .rot .sra .l => .sraL | .rot .sra .a => .sraA | .rot .swap .b => .swapB | .rot .swap .c => .swapC
  | .rot .swap .d => .swapD | .rot .swap .e => .swapE | .rot .swap .h => .swapH | .rot .swap .l => .swapL
  | .rot .swap .a => .swapA | .rot .srl .b => .srlB | .rot .srl .c => .srlC | .rot .srl .d => .srlD
  | .rot .srl .e => .srlE | .rot .srl .h => .srlH | .rot .srl .l => .srlL | .rot .srl .a => .srlA
  | .rotAtHl .rlc => .rlcAtHl | .rotAtHl .rrc => .rrcAtHl | .rotAtHl .rl => .rlAtHl | .rotAtHl .rr => .rrAtHl
  | .rotAtHl .sla => .slaAtHl | .rotAtHl .sra => .sraAtHl | .rotAtHl .swap => .swapAtHl | .rotAtHl .srl => .srlAtHl
  | .bit .n0 .b => .bit0B | .bit .n0 .c => .bit0C | .bit .n0 .d => .bit0D | .bit .n0 .e => .bit0E
  | .bit .n0 .h => .bit0H | .bit .n0 .l => .bit0L | .bit .n0 .a => .bit0A | .bit .n1 .b => .bit1B
  | .bit .n1 .c => .bit1C | .bit .n1 .d => .bit1D | .bit .n1 .e => .bit1E | .bit .n1 .h => .bit1H
  | .bit .n1 .l => .bit1L | .bit .n1 .a => .bit1A | .bit .n2 .b => .bit2B | .bit .n2 .c => .bit2C
  | .bit .n2 .d => .bit2D | .bit .n2 .e => .bit2E | .bit .n2 .h => .bit2H | .bit .n2 .l => .bit2L
  | .bit .n2 .a => .bit2A | .bit .n3 .b => .bit3B | .bit .n3 .c => .bit3C | .bit .n3 .d => .bit3D
  | .bit .n3 .e => .bit3E | .bit .n3 .h => .bit3H | .bit .n3 .l => .bit3L | .bit .n3 .a => .bit3A
  | .bit .n4 .b => .bit4B | .bit .n4 .c => .bit4C | .bit .n4 .d => .bit4D | .bit .n4 .e => .bit4E
  | .bit .n4 .h => .bit4H | .bit .n4 .l => .bit4L | .bit .n4 .a => .bit4A | .bit .n5 .b => .bit5B
  | .bit .n5 .c => .bit5C | .bit .n5 .d => .bit5D | .bit .n5 .e => .bit5E | .bit .n5 .h => .bit5H
  | .bit .n5 .l => .bit5L | .bit .n5 .a => .bit5A | .bit .n6 .b => .bit6B | .bit .n6 .c => .bit6C
  | .bit .n6 .d => .bit6D | .bit .n6 .e => .bit6E | .bit .n6 .h => .bit6H | .bit .n6 .l => .bit6L
  | .bit .n6 .a => .bit6A | .bit .n7 .b => .bit7B | .bit .n7 .c => .bit7C | .bit .n7 .d => .bit7D
  | .bit .n7 .e => .bit7E | .bit .n7 .h => .bit7H | .bit .n7 .l => .bit7L | .bit .n7 .a => .bit7A
  | .bitAtHl .n0 => .bit0AtHl | .bitAtHl .n1 => .bit1AtHl | .bitAtHl .n2 => .bit2AtHl | .bitAtHl .n3 => .bit3AtHl
  | .bitAtHl .n4 => .bit4AtHl | .bitAtHl .n5 => .bit5AtHl | .bitAtHl .n6 => .bit6AtHl | .bitAtHl .n7 => .bit7AtHl
  | .res .n0 .b => .res0B | .res .n0 .c => .res0C | .res .n0 .d => .res0D | .res .n0 .e => .res0E
  | .res .n0 .h => .res0H | .res .n0 .l => .res0L | .res .n0 .a => .res0A | .res .n1 .b => .res1B
  | .res .n1 .c => .res1C | .res .n1 .d => .res1D | .res .n1 .e => .res1E | .res .n1 .h => .res1H
  | .res .n1 .l => .res1L | .res .n1 .a => .res1A | .res .n2 .b => .res2B | .res .n2 .c => .res2C
  | .res .n2 .d => .res2D | .res .n2 .e => .res2E | .res .n2 .h => .res2H | .res .n2 .l => .res2L
  | .res .n2 .a => .res2A | .res .n3 .b => .res3B | .res .n3 .c => .res3C | .res .n3 .d => .res3D
  | .res .n3 .e => .res3E | .res .n3 .h => .res3H | .res .n3 .l => .res3L | .res .n3 .a => .res3A
  | .res .n4 .b => .res4B | .res .n4 .c => .res4C | .res .n4 .d => .res4D | .res .n4 .e => .res4E
  | .res .n4 .h => .res4H | .res .n4 .l => .res4L | .res .n4 .a => .res4A | .res .n5 .b => .res5B
  | .res .n5 .c => .res5C | .res .n5 .d => .res5D | .res .n5 .e => .res5E | .res .n5 .h => .res5H
  | .res .n5 .l => .res5L | .res .n5 .a => .res5A | .res .n6 .b => .res6B | .res .n6 .c => .res6C
  | .res .n6 .d => .res6D | .res .n6 .e => .res6E | .res .n6 .h => .res6H | .res .n6 .l => .res6L
  | .res .n6 .a => .res6A | .res .n7 .b => .res7B | .res .n7 .c => .res7C | .res .n7 .d => .res7D
  | .res .n7 .e => .res7E | .res .n7 .h => .res7H | .res .n7 .l => .res7L | .res .n7 .a => .res7A
  | .resAtHl .n0 => .res0AtHl | .resAtHl .n1 => .res1AtHl | .resAtHl .n2 => .res2AtHl | .resAtHl .n3 => .res3AtHl
  | .resAtHl .n4 => .res4AtHl | .resAtHl .n5 => .res5AtHl | .resAtHl .n6 => .res6AtHl | .resAtHl .n7 => .res7AtHl
  | .set .n0 .b => .set0B | .set .n0 .c => .set0C | .set .n0 .d => .set0D | .set .n0 .e => .set0E
  | .set .n0 .h => .set0H | .set .n0 .l => .set0L | .set .n0 .a => .set0A | .set .n1 .b => .set1B
  | .set .n1 .c => .set1C | .set .n1 .d => .set1D | .set .n1 .e => .set1E | .set .n1 .h => .set1H
  | .set .n1 .l => .set1L | .set .n1 .a => .set1A | .set .n2 .b => .set2B | .set .n2 .c => .set2C
  | .set .n2 .d => .set2D | .set .n2 .e => .set2E | .set .n2 .h => .set2H | .set .n2 .l => .set2L
  | .set .n2 .a => .set2A | .set .n3 .b => .set3B | .set .n3 .c => .set3C | .set .n3 .d => .set3D
  | .set .n3 .e => .set3E | .set .n3 .h => .set3H | .set .n3 .l => .set3L | .set .n3 .a => .set3A
  | .set .n4 .b => .set4B | .set .n4 .c => .set4C | .set .n4 .d => .set4D | .set .n4 .e => .set4E
  | .set .n4 .h => .set4H | .set .n4 .l => .set4L | .set .n4 .a => .set4A | .set .n5 .b => .set5B
  | .set .n5 .c => .set5C | .set .n5 .d => .set5D | .set .n5 .e => .set5E | .set .n5 .h => .set5H
  | .set .n5 .l => .set5L | .set .n5 .a => .set5A | .set .n6 .b => .set6B | .set .n6 .c => .set6C
  | .set .n6 .d => .set6D | .set .n6 .e => .set6E | .set .n6 .h => .set6H | .set .n6 .l => .set6L
  | .set .n6 .a => .set6A | .set .n7 .b => .set7B | .set .n7 .c => .set7C | .set .n7 .d => .set7D
  | .set .n7 .e => .set7E | .set .n7 .h => .set7H | .set .n7 .l => .set7L | .set .n7 .a => .set7A
  | .setAtHl .n0 => .set0AtHl | .setAtHl .n1 => .set1AtHl | .setAtHl .n2 => .set2AtHl | .setAtHl .n3 => .set3AtHl
  | .setAtHl .n4 => .set4AtHl | .setAtHl .n5 => .set5AtHl | .setAtHl .n6 => .set6AtHl | .setAtHl .n7 => .set7AtHl

/-- The form of a row: the inverse of `Form.toInstr`. -/
def Instr.form : Instr → Form
  | .nop => .nop | .ldBcD16 imm => .ldPair .bc imm | .ldAtBcA => .ldToBcA | .incBc => .incPair .bc
  | .incB => .incReg .b | .decB => .decReg .b | .ldBD8 imm => .ldImm .b imm | .rlca => .rlca
  | .ldAtA16Sp addr => .ldToAbsSp addr | .addHlBc => .addHl .bc | .ldAAtBc => .ldAFromBc | .decBc => .decPair .bc
  | .incC => .incReg .c | .decC => .decReg .c | .ldCD8 imm => .ldImm .c imm | .rrca => .rrca
  | .stop second => .stop second | .ldDeD16 imm => .ldPair .de imm | .ldAtDeA => .ldToDeA | .incDe => .incPair .de
  | .incD => .incReg .d | .decD => .decReg .d | .ldDD8 imm => .ldImm .d imm | .rla => .rla
  | .jrE8 off => .jr off | .addHlDe => .addHl .de | .ldAAtDe => .ldAFromDe | .decDe => .decPair .de
  | .incE => .incReg .e | .decE => .decReg .e | .ldED8 imm => .ldImm .e imm | .rra => .rra
  | .jrNzE8 off => .jrIf .nz off | .ldHlD16 imm => .ldPair .hl imm | .ldAtHlIncA => .ldToHlIncA | .incHl => .incPair .hl
  | .incH => .incReg .h | .decH => .decReg .h | .ldHD8 imm => .ldImm .h imm | .daa => .daa
  | .jrZE8 off => .jrIf .z off | .addHlHl => .addHl .hl | .ldAAtHlInc => .ldAFromHlInc | .decHl => .decPair .hl
  | .incL => .incReg .l | .decL => .decReg .l | .ldLD8 imm => .ldImm .l imm | .cpl => .cpl
  | .jrNcE8 off => .jrIf .nc off | .ldSpD16 imm => .ldPair .sp imm | .ldAtHlDecA => .ldToHlDecA | .incSp => .incPair .sp
  | .incAtHl => .incAtHl | .decAtHl => .decAtHl | .ldAtHlD8 imm => .ldToHlImm imm | .scf => .scf
  | .jrCE8 off => .jrIf .c off | .addHlSp => .addHl .sp | .ldAAtHlDec => .ldAFromHlDec | .decSp => .decPair .sp
  | .incA => .incReg .a | .decA => .decReg .a | .ldAD8 imm => .ldImm .a imm | .ccf => .ccf
  | .ldBB => .ldReg .b .b | .ldBC => .ldReg .b .c | .ldBD => .ldReg .b .d | .ldBE => .ldReg .b .e
  | .ldBH => .ldReg .b .h | .ldBL => .ldReg .b .l | .ldBAtHl => .ldFromHl .b | .ldBA => .ldReg .b .a
  | .ldCB => .ldReg .c .b | .ldCC => .ldReg .c .c | .ldCD => .ldReg .c .d | .ldCE => .ldReg .c .e
  | .ldCH => .ldReg .c .h | .ldCL => .ldReg .c .l | .ldCAtHl => .ldFromHl .c | .ldCA => .ldReg .c .a
  | .ldDB => .ldReg .d .b | .ldDC => .ldReg .d .c | .ldDD => .ldReg .d .d | .ldDE => .ldReg .d .e
  | .ldDH => .ldReg .d .h | .ldDL => .ldReg .d .l | .ldDAtHl => .ldFromHl .d | .ldDA => .ldReg .d .a
  | .ldEB => .ldReg .e .b | .ldEC => .ldReg .e .c | .ldED => .ldReg .e .d | .ldEE => .ldReg .e .e
  | .ldEH => .ldReg .e .h | .ldEL => .ldReg .e .l | .ldEAtHl => .ldFromHl .e | .ldEA => .ldReg .e .a
  | .ldHB => .ldReg .h .b | .ldHC => .ldReg .h .c | .ldHD => .ldReg .h .d | .ldHE => .ldReg .h .e
  | .ldHH => .ldReg .h .h | .ldHL => .ldReg .h .l | .ldHAtHl => .ldFromHl .h | .ldHA => .ldReg .h .a
  | .ldLB => .ldReg .l .b | .ldLC => .ldReg .l .c | .ldLD => .ldReg .l .d | .ldLE => .ldReg .l .e
  | .ldLH => .ldReg .l .h | .ldLL => .ldReg .l .l | .ldLAtHl => .ldFromHl .l | .ldLA => .ldReg .l .a
  | .ldAtHlB => .ldToHl .b | .ldAtHlC => .ldToHl .c | .ldAtHlD => .ldToHl .d | .ldAtHlE => .ldToHl .e
  | .ldAtHlH => .ldToHl .h | .ldAtHlL => .ldToHl .l | .halt => .halt | .ldAtHlA => .ldToHl .a
  | .ldAB => .ldReg .a .b | .ldAC => .ldReg .a .c | .ldAD => .ldReg .a .d | .ldAE => .ldReg .a .e
  | .ldAH => .ldReg .a .h | .ldAL => .ldReg .a .l | .ldAAtHl => .ldFromHl .a | .ldAA => .ldReg .a .a
  | .addAB => .alu .add .b | .addAC => .alu .add .c | .addAD => .alu .add .d | .addAE => .alu .add .e
  | .addAH => .alu .add .h | .addAL => .alu .add .l | .addAAtHl => .aluAtHl .add | .addAA => .alu .add .a
  | .adcAB => .alu .adc .b | .adcAC => .alu .adc .c | .adcAD => .alu .adc .d | .adcAE => .alu .adc .e
  | .adcAH => .alu .adc .h | .adcAL => .alu .adc .l | .adcAAtHl => .aluAtHl .adc | .adcAA => .alu .adc .a
  | .subB => .alu .sub .b | .subC => .alu .sub .c | .subD => .alu .sub .d | .subE => .alu .sub .e
  | .subH => .alu .sub .h | .subL => .alu .sub .l | .subAtHl => .aluAtHl .sub | .subA => .alu .sub .a
  | .sbcAB => .alu .sbc .b | .sbcAC => .alu .sbc .c | .sbcAD => .alu .sbc .d | .sbcAE => .alu .sbc .e
  | .sbcAH => .alu .sbc .h | .sbcAL => .alu .sbc .l | .sbcAAtHl => .aluAtHl .sbc | .sbcAA => .alu .sbc .a
  | .andB => .alu .and .b | .andC => .alu .and .c | .andD => .alu .and .d | .andE => .alu .and .e
  | .andH => .alu .and .h | .andL => .alu .and .l | .andAtHl => .aluAtHl .and | .andA => .alu .and .a
  | .xorB => .alu .xor .b | .xorC => .alu .xor .c | .xorD => .alu .xor .d | .xorE => .alu .xor .e
  | .xorH => .alu .xor .h | .xorL => .alu .xor .l | .xorAtHl => .aluAtHl .xor | .xorA => .alu .xor .a
  | .orB => .alu .or .b | .orC => .alu .or .c | .orD => .alu .or .d | .orE => .alu .or .e
  | .orH => .alu .or .h | .orL => .alu .or .l | .orAtHl => .aluAtHl .or | .orA => .alu .or .a
  | .cpB => .alu .cp .b | .cpC => .alu .cp .c | .cpD => .alu .cp .d | .cpE => .alu .cp .e
  | .cpH => .alu .cp .h | .cpL => .alu .cp .l | .cpAtHl => .aluAtHl .cp | .cpA => .alu .cp .a
  | .retNz => .retIf .nz | .popBc => .pop .bc | .jpNzA16 addr => .jpIf .nz addr | .jpA16 addr => .jp addr
  | .callNzA16 addr => .callIf .nz addr | .pushBc => .push .bc | .addAD8 imm => .aluImm .add imm | .rst00 => .rst .t00
  | .retZ => .retIf .z | .ret => .ret | .jpZA16 addr => .jpIf .z addr | .prefixCb op2 => .prefixCb op2
  | .callZA16 addr => .callIf .z addr | .callA16 addr => .call addr | .adcAD8 imm => .aluImm .adc imm | .rst08 => .rst .t08
  | .retNc => .retIf .nc | .popDe => .pop .de | .jpNcA16 addr => .jpIf .nc addr | .illegalD3 => .illegal .xD3
  | .callNcA16 addr => .callIf .nc addr | .pushDe => .push .de | .subD8 imm => .aluImm .sub imm | .rst10 => .rst .t10
  | .retC => .retIf .c | .reti => .reti | .jpCA16 addr => .jpIf .c addr | .illegalDB => .illegal .xDB
  | .callCA16 addr => .callIf .c addr | .illegalDD => .illegal .xDD | .sbcAD8 imm => .aluImm .sbc imm | .rst18 => .rst .t18
  | .ldhAtA8A lo => .ldhToImmA lo | .popHl => .pop .hl | .ldhAtCA => .ldhToCA | .illegalE3 => .illegal .xE3
  | .illegalE4 => .illegal .xE4 | .pushHl => .push .hl | .andD8 imm => .aluImm .and imm | .rst20 => .rst .t20
  | .addSpE8 off => .addSp off | .jpHl => .jpHl | .ldAtA16A addr => .ldToAbsA addr | .illegalEB => .illegal .xEB
  | .illegalEC => .illegal .xEC | .illegalED => .illegal .xED | .xorD8 imm => .aluImm .xor imm | .rst28 => .rst .t28
  | .ldhAAtA8 lo => .ldhAFromImm lo | .popAf => .popAf | .ldhAAtC => .ldhAFromC | .di => .di
  | .illegalF4 => .illegal .xF4 | .pushAf => .pushAf | .orD8 imm => .aluImm .or imm | .rst30 => .rst .t30
  | .ldHlSpE8 off => .ldHlSp off | .ldSpHl => .ldSpHl | .ldAAtA16 addr => .ldAFromAbs addr | .ei => .ei
  | .illegalFC => .illegal .xFC | .illegalFD => .illegal .xFD | .cpD8 imm => .aluImm .cp imm | .rst38 => .rst .t38
  | .rlcB => .rot .rlc .b | .rlcC => .rot .rlc .c | .rlcD => .rot .rlc .d | .rlcE => .rot .rlc .e
  | .rlcH => .rot .rlc .h | .rlcL => .rot .rlc .l | .rlcAtHl => .rotAtHl .rlc | .rlcA => .rot .rlc .a
  | .rrcB => .rot .rrc .b | .rrcC => .rot .rrc .c | .rrcD => .rot .rrc .d | .rrcE => .rot .rrc .e
  | .rrcH => .rot .rrc .h | .rrcL => .rot .rrc .l | .rrcAtHl => .rotAtHl .rrc | .rrcA => .rot .rrc .a
  | .rlB => .rot .rl .b | .rlC => .rot .rl .c | .rlD => .rot .rl .d | .rlE => .rot .rl .e
  | .rlH => .rot .rl .h | .rlL => .rot .rl .l | .rlAtHl => .rotAtHl .rl | .rlA => .rot .rl .a
  | .rrB => .rot .rr .b | .rrC => .rot .rr .c | .rrD => .rot .rr .d | .rrE => .rot .rr .e
  | .rrH => .rot .rr .h | .rrL => .rot .rr .l | .rrAtHl => .rotAtHl .rr | .rrA => .rot .rr .a
  | .slaB => .rot .sla .b | .slaC => .rot .sla .c | .slaD => .rot .sla .d | .slaE => .rot .sla .e
  | .slaH => .rot .sla .h | .slaL => .rot .sla .l | .slaAtHl => .rotAtHl .sla | .slaA => .rot .sla .a
  | .sraB => .rot .sra .b | .sraC => .rot .sra .c | .sraD => .rot .sra .d | .sraE => .rot .sra .e
  | .sraH => .rot .sra .h | .sraL => .rot .sra .l | .sraAtHl => .rotAtHl .sra | .sraA => .rot .sra .a
  | .swapB => .rot .swap .b | .swapC => .rot .swap .c | .swapD => .rot .swap .d | .swapE => .rot .swap .e
  | .swapH => .rot .swap .h | .swapL => .rot .swap .l | .swapAtHl => .rotAtHl .swap | .swapA => .rot .swap .a
  | .srlB => .rot .srl .b | .srlC => .rot .srl .c | .srlD => .rot .srl .d | .srlE => .rot .srl .e
  | .srlH => .rot .srl .h | .srlL => .rot .srl .l | .srlAtHl => .rotAtHl .srl | .srlA => .rot .srl .a
  | .bit0B => .bit .n0 .b | .bit0C => .bit .n0 .c | .bit0D => .bit .n0 .d | .bit0E => .bit .n0 .e
  | .bit0H => .bit .n0 .h | .bit0L => .bit .n0 .l | .bit0AtHl => .bitAtHl .n0 | .bit0A => .bit .n0 .a
  | .bit1B => .bit .n1 .b | .bit1C => .bit .n1 .c | .bit1D => .bit .n1 .d | .bit1E => .bit .n1 .e
  | .bit1H => .bit .n1 .h | .bit1L => .bit .n1 .l | .bit1AtHl => .bitAtHl .n1 | .bit1A => .bit .n1 .a
  | .bit2B => .bit .n2 .b | .bit2C => .bit .n2 .c | .bit2D => .bit .n2 .d | .bit2E => .bit .n2 .e
  | .bit2H => .bit .n2 .h | .bit2L => .bit .n2 .l | .bit2AtHl => .bitAtHl .n2 | .bit2A => .bit .n2 .a
  | .bit3B => .bit .n3 .b | .bit3C => .bit .n3 .c | .bit3D => .bit .n3 .d | .bit3E => .bit .n3 .e
  | .bit3H => .bit .n3 .h | .bit3L => .bit .n3 .l | .bit3AtHl => .bitAtHl .n3 | .bit3A => .bit .n3 .a
  | .bit4B => .bit .n4 .b | .bit4C => .bit .n4 .c | .bit4D => .bit .n4 .d | .bit4E => .bit .n4 .e
  | .bit4H => .bit .n4 .h | .bit4L => .bit .n4 .l | .bit4AtHl => .bitAtHl .n4 | .bit4A => .bit .n4 .a
  | .bit5B => .bit .n5 .b | .bit5C => .bit .n5 .c | .bit5D => .bit .n5 .d | .bit5E => .bit .n5 .e
  | .bit5H => .bit .n5 .h | .bit5L => .bit .n5 .l | .bit5AtHl => .bitAtHl .n5 | .bit5A => .bit .n5 .a
  | .bit6B => .bit .n6 .b | .bit6C => .bit .n6 .c | .bit6D => .bit .n6 .d | .bit6E => .bit .n6 .e
  | .bit6H => .bit .n6 .h | .bit6L => .bit .n6 .l | .bit6AtHl => .bitAtHl .n6 | .bit6A => .bit .n6 .a
  | .bit7B => .bit .n7 .b | .bit7C => .bit .n7 .c | .bit7D => .bit .n7 .d | .bit7E => .bit .n7 .e
  | .bit7H => .bit .n7 .h | .bit7L => .bit .n7 .l | .bit7AtHl => .bitAtHl .n7 | .bit7A => .bit .n7 .a
  | .res0B => .res .n0 .b | .res0C => .res .n0 .c | .res0D => .res .n0 .d | .res0E => .res .n0 .e
  | .res0H => .res .n0 .h | .res0L => .res .n0 .l | .res0AtHl => .resAtHl .n0 | .res0A => .res .n0 .a
  | .res1B => .res .n1 .b | .res1C => .res .n1 .c | .res1D => .res .n1 .d | .res1E => .res .n1 .e
  | .res1H => .res .n1 .h | .res1L => .res .n1 .l | .res1AtHl => .resAtHl .n1 | .res1A => .res .n1 .a
  | .res2B => .res .n2 .b | .res2C => .res .n2 .c | .res2D => .res .n2 .d | .res2E => .res .n2 .e
  | .res2H => .res .n2 .h | .res2L => .res .n2 .l | .res2AtHl => .resAtHl .n2 | .res2A => .res .n2 .a
  | .res3B => .res .n3 .b | .res3C => .res .n3 .c | .res3D => .res .n3 .d | .res3E => .res .n3 .e
  | .res3H => .res .n3 .h | .res3L => .res .n3 .l | .res3AtHl => .resAtHl .n3 | .res3A => .res .n3 .a
  | .res4B => .res .n4 .b | .res4C => .res .n4 .c | .res4D => .res .n4 .d | .res4E => .res .n4 .e
  | .res4H => .res .n4 .h | .res4L => .res .n4 .l | .res4AtHl => .resAtHl .n4 | .res4A => .res .n4 .a
  | .res5B => .res .n5 .b | .res5C => .res .n5 .c | .res5D => .res .n5 .d | .res5E => .res .n5 .e
  | .res5H => .res .n5 .h | .res5L => .res .n5 .l | .res5AtHl => .resAtHl .n5 | .res5A => .res .n5 .a
  | .res6B => .res .n6 .b | .res6C => .res .n6 .c | .res6D => .res .n6 .d | .res6E => .res .n6 .e
  | .res6H => .res .n6 .h | .res6L => .res .n6 .l | .res6AtHl => .resAtHl .n6 | .res6A => .res .n6 .a
  | .res7B => .res .n7 .b | .res7C => .res .n7 .c | .res7D => .res .n7 .d | .res7E => .res .n7 .e
  | .res7H => .res .n7 .h | .res7L => .res .n7 .l | .res7AtHl => .resAtHl .n7 | .res7A => .res .n7 .a
  | .set0B => .set .n0 .b | .set0C => .set .n0 .c | .set0D => .set .n0 .d | .set0E => .set .n0 .e
  | .set0H => .set .n0 .h | .set0L => .set .n0 .l | .set0AtHl => .setAtHl .n0 | .set0A => .set .n0 .a
  | .set1B => .set .n1 .b | .set1C => .set .n1 .c | .set1D => .set .n1 .d | .set1E => .set .n1 .e
  | .set1H => .set .n1 .h | .set1L => .set .n1 .l | .set1AtHl => .setAtHl .n1 | .set1A => .set .n1 .a
  | .set2B => .set .n2 .b | .set2C => .set .n2 .c | .set2D => .set .n2 .d | .set2E => .set .n2 .e
  | .set2H => .set .n2 .h | .set2L => .set .n2 .l | .set2AtHl => .setAtHl .n2 | .set2A => .set .n2 .a
  | .set3B => .set .n3 .b | .set3C => .set .n3 .c | .set3D => .set .n3 .d | .set3E => .set .n3 .e
  | .set3H => .set .n3 .h | .set3L => .set .n3 .l | .set3AtHl => .setAtHl .n3 | .set3A => .set .n3 .a
  | .set4B => .set .n4 .b | .set4C => .set .n4 .c | .set4D => .set .n4 .d | .set4E => .set .n4 .e
  | .set4H => .set .n4 .h | .set4L => .set .n4 .l | .set4AtHl => .setAtHl .n4 | .set4A => .set .n4 .a
  | .set5B => .set .n5 .b | .set5C => .set .n5 .c | .set5D => .set .n5 .d | .set5E => .set .n5 .e
  | .set5H => .set .n5 .h | .set5L => .set .n5 .l | .set5AtHl => .setAtHl .n5 | .set5A => .set .n5 .a
  | .set6B => .set .n6 .b | .set6C => .set .n6 .c | .set6D => .set .n6 .d | .set6E => .set .n6 .e
  | .set6H => .set .n6 .h | .set6L => .set .n6 .l | .set6AtHl => .setAtHl .n6 | .set6A => .set .n6 .a
  | .set7B => .set .n7 .b | .set7C => .set .n7 .c | .set7D => .set .n7 .d | .set7E => .set .n7 .e
  | .set7H => .set .n7 .h | .set7L => .set .n7 .l | .set7AtHl => .setAtHl .n7 | .set7A => .set .n7 .a

/-- The instruction of an opcode byte and the bytes after it (only as many as `operandCount` says are looked at). -/
def instrOf (op b1 b2 : Byte) : Instr := (Decode.formOf op b1 b2).toInstr

/-- R120, R137: the instruction at the head of a byte sequence and the bytes after it, or the reason there is none. -/
def decode : List Byte → Except DecodeError (Instr × List Byte)
  | [] => .error .noByte
  | op :: rest =>
    match Decode.operandCount op, rest with
    | 0, rest => .ok (instrOf op 0 0, rest)
    | 1, b1 :: rest => .ok (instrOf op b1 0, rest)
    | 2, b1 :: b2 :: rest => .ok (instrOf op b1 b2, rest)
    | _, _ => .error (.truncated op)

/-- The bytes of an instruction, in ascending address order, from the maps R130 and R131 and the formats R121. -/
def encode : Instr → List Byte
  | .nop => [0x00] | .ldBcD16 imm => [0x01, Machine.loByte imm, Machine.hiByte imm] | .ldAtBcA => [0x02] | .incBc => [0x03]
  | .incB => [0x04] | .decB => [0x05] | .ldBD8 imm => [0x06, imm] | .rlca => [0x07]
  | .ldAtA16Sp addr => [0x08, Machine.loByte addr, Machine.hiByte addr] | .addHlBc => [0x09] | .ldAAtBc => [0x0A] | .decBc => [0x0B]
  | .incC => [0x0C] | .decC => [0x0D] | .ldCD8 imm => [0x0E, imm] | .rrca => [0x0F]
  | .stop second => [0x10, second] | .ldDeD16 imm => [0x11, Machine.loByte imm, Machine.hiByte imm] | .ldAtDeA => [0x12] | .incDe => [0x13]
  | .incD => [0x14] | .decD => [0x15] | .ldDD8 imm => [0x16, imm] | .rla => [0x17]
  | .jrE8 off => [0x18, off] | .addHlDe => [0x19] | .ldAAtDe => [0x1A] | .decDe => [0x1B]
  | .incE => [0x1C] | .decE => [0x1D] | .ldED8 imm => [0x1E, imm] | .rra => [0x1F]
  | .jrNzE8 off => [0x20, off] | .ldHlD16 imm => [0x21, Machine.loByte imm, Machine.hiByte imm] | .ldAtHlIncA => [0x22] | .incHl => [0x23]
  | .incH => [0x24] | .decH => [0x25] | .ldHD8 imm => [0x26, imm] | .daa => [0x27]
  | .jrZE8 off => [0x28, off] | .addHlHl => [0x29] | .ldAAtHlInc => [0x2A] | .decHl => [0x2B]
  | .incL => [0x2C] | .decL => [0x2D] | .ldLD8 imm => [0x2E, imm] | .cpl => [0x2F]
  | .jrNcE8 off => [0x30, off] | .ldSpD16 imm => [0x31, Machine.loByte imm, Machine.hiByte imm] | .ldAtHlDecA => [0x32] | .incSp => [0x33]
  | .incAtHl => [0x34] | .decAtHl => [0x35] | .ldAtHlD8 imm => [0x36, imm] | .scf => [0x37]
  | .jrCE8 off => [0x38, off] | .addHlSp => [0x39] | .ldAAtHlDec => [0x3A] | .decSp => [0x3B]
  | .incA => [0x3C] | .decA => [0x3D] | .ldAD8 imm => [0x3E, imm] | .ccf => [0x3F]
  | .ldBB => [0x40] | .ldBC => [0x41] | .ldBD => [0x42] | .ldBE => [0x43]
  | .ldBH => [0x44] | .ldBL => [0x45] | .ldBAtHl => [0x46] | .ldBA => [0x47]
  | .ldCB => [0x48] | .ldCC => [0x49] | .ldCD => [0x4A] | .ldCE => [0x4B]
  | .ldCH => [0x4C] | .ldCL => [0x4D] | .ldCAtHl => [0x4E] | .ldCA => [0x4F]
  | .ldDB => [0x50] | .ldDC => [0x51] | .ldDD => [0x52] | .ldDE => [0x53]
  | .ldDH => [0x54] | .ldDL => [0x55] | .ldDAtHl => [0x56] | .ldDA => [0x57]
  | .ldEB => [0x58] | .ldEC => [0x59] | .ldED => [0x5A] | .ldEE => [0x5B]
  | .ldEH => [0x5C] | .ldEL => [0x5D] | .ldEAtHl => [0x5E] | .ldEA => [0x5F]
  | .ldHB => [0x60] | .ldHC => [0x61] | .ldHD => [0x62] | .ldHE => [0x63]
  | .ldHH => [0x64] | .ldHL => [0x65] | .ldHAtHl => [0x66] | .ldHA => [0x67]
  | .ldLB => [0x68] | .ldLC => [0x69] | .ldLD => [0x6A] | .ldLE => [0x6B]
  | .ldLH => [0x6C] | .ldLL => [0x6D] | .ldLAtHl => [0x6E] | .ldLA => [0x6F]
  | .ldAtHlB => [0x70] | .ldAtHlC => [0x71] | .ldAtHlD => [0x72] | .ldAtHlE => [0x73]
  | .ldAtHlH => [0x74] | .ldAtHlL => [0x75] | .halt => [0x76] | .ldAtHlA => [0x77]
  | .ldAB => [0x78] | .ldAC => [0x79] | .ldAD => [0x7A] | .ldAE => [0x7B]
  | .ldAH => [0x7C] | .ldAL => [0x7D] | .ldAAtHl => [0x7E] | .ldAA => [0x7F]
  | .addAB => [0x80] | .addAC => [0x81] | .addAD => [0x82] | .addAE => [0x83]
  | .addAH => [0x84] | .addAL => [0x85] | .addAAtHl => [0x86] | .addAA => [0x87]
  | .adcAB => [0x88] | .adcAC => [0x89] | .adcAD => [0x8A] | .adcAE => [0x8B]
  | .adcAH => [0x8C] | .adcAL => [0x8D] | .adcAAtHl => [0x8E] | .adcAA => [0x8F]
  | .subB => [0x90] | .subC => [0x91] | .subD => [0x92] | .subE => [0x93]
  | .subH => [0x94] | .subL => [0x95] | .subAtHl => [0x96] | .subA => [0x97]
  | .sbcAB => [0x98] | .sbcAC => [0x99] | .sbcAD => [0x9A] | .sbcAE => [0x9B]
  | .sbcAH => [0x9C] | .sbcAL => [0x9D] | .sbcAAtHl => [0x9E] | .sbcAA => [0x9F]
  | .andB => [0xA0] | .andC => [0xA1] | .andD => [0xA2] | .andE => [0xA3]
  | .andH => [0xA4] | .andL => [0xA5] | .andAtHl => [0xA6] | .andA => [0xA7]
  | .xorB => [0xA8] | .xorC => [0xA9] | .xorD => [0xAA] | .xorE => [0xAB]
  | .xorH => [0xAC] | .xorL => [0xAD] | .xorAtHl => [0xAE] | .xorA => [0xAF]
  | .orB => [0xB0] | .orC => [0xB1] | .orD => [0xB2] | .orE => [0xB3]
  | .orH => [0xB4] | .orL => [0xB5] | .orAtHl => [0xB6] | .orA => [0xB7]
  | .cpB => [0xB8] | .cpC => [0xB9] | .cpD => [0xBA] | .cpE => [0xBB]
  | .cpH => [0xBC] | .cpL => [0xBD] | .cpAtHl => [0xBE] | .cpA => [0xBF]
  | .retNz => [0xC0] | .popBc => [0xC1] | .jpNzA16 addr => [0xC2, Machine.loByte addr, Machine.hiByte addr] | .jpA16 addr => [0xC3, Machine.loByte addr, Machine.hiByte addr]
  | .callNzA16 addr => [0xC4, Machine.loByte addr, Machine.hiByte addr] | .pushBc => [0xC5] | .addAD8 imm => [0xC6, imm] | .rst00 => [0xC7]
  | .retZ => [0xC8] | .ret => [0xC9] | .jpZA16 addr => [0xCA, Machine.loByte addr, Machine.hiByte addr] | .prefixCb op2 => [0xCB, op2]
  | .callZA16 addr => [0xCC, Machine.loByte addr, Machine.hiByte addr] | .callA16 addr => [0xCD, Machine.loByte addr, Machine.hiByte addr] | .adcAD8 imm => [0xCE, imm] | .rst08 => [0xCF]
  | .retNc => [0xD0] | .popDe => [0xD1] | .jpNcA16 addr => [0xD2, Machine.loByte addr, Machine.hiByte addr] | .illegalD3 => [0xD3]
  | .callNcA16 addr => [0xD4, Machine.loByte addr, Machine.hiByte addr] | .pushDe => [0xD5] | .subD8 imm => [0xD6, imm] | .rst10 => [0xD7]
  | .retC => [0xD8] | .reti => [0xD9] | .jpCA16 addr => [0xDA, Machine.loByte addr, Machine.hiByte addr] | .illegalDB => [0xDB]
  | .callCA16 addr => [0xDC, Machine.loByte addr, Machine.hiByte addr] | .illegalDD => [0xDD] | .sbcAD8 imm => [0xDE, imm] | .rst18 => [0xDF]
  | .ldhAtA8A lo => [0xE0, lo] | .popHl => [0xE1] | .ldhAtCA => [0xE2] | .illegalE3 => [0xE3]
  | .illegalE4 => [0xE4] | .pushHl => [0xE5] | .andD8 imm => [0xE6, imm] | .rst20 => [0xE7]
  | .addSpE8 off => [0xE8, off] | .jpHl => [0xE9] | .ldAtA16A addr => [0xEA, Machine.loByte addr, Machine.hiByte addr] | .illegalEB => [0xEB]
  | .illegalEC => [0xEC] | .illegalED => [0xED] | .xorD8 imm => [0xEE, imm] | .rst28 => [0xEF]
  | .ldhAAtA8 lo => [0xF0, lo] | .popAf => [0xF1] | .ldhAAtC => [0xF2] | .di => [0xF3]
  | .illegalF4 => [0xF4] | .pushAf => [0xF5] | .orD8 imm => [0xF6, imm] | .rst30 => [0xF7]
  | .ldHlSpE8 off => [0xF8, off] | .ldSpHl => [0xF9] | .ldAAtA16 addr => [0xFA, Machine.loByte addr, Machine.hiByte addr] | .ei => [0xFB]
  | .illegalFC => [0xFC] | .illegalFD => [0xFD] | .cpD8 imm => [0xFE, imm] | .rst38 => [0xFF]
  | .rlcB => [0xCB, 0x00] | .rlcC => [0xCB, 0x01] | .rlcD => [0xCB, 0x02] | .rlcE => [0xCB, 0x03]
  | .rlcH => [0xCB, 0x04] | .rlcL => [0xCB, 0x05] | .rlcAtHl => [0xCB, 0x06] | .rlcA => [0xCB, 0x07]
  | .rrcB => [0xCB, 0x08] | .rrcC => [0xCB, 0x09] | .rrcD => [0xCB, 0x0A] | .rrcE => [0xCB, 0x0B]
  | .rrcH => [0xCB, 0x0C] | .rrcL => [0xCB, 0x0D] | .rrcAtHl => [0xCB, 0x0E] | .rrcA => [0xCB, 0x0F]
  | .rlB => [0xCB, 0x10] | .rlC => [0xCB, 0x11] | .rlD => [0xCB, 0x12] | .rlE => [0xCB, 0x13]
  | .rlH => [0xCB, 0x14] | .rlL => [0xCB, 0x15] | .rlAtHl => [0xCB, 0x16] | .rlA => [0xCB, 0x17]
  | .rrB => [0xCB, 0x18] | .rrC => [0xCB, 0x19] | .rrD => [0xCB, 0x1A] | .rrE => [0xCB, 0x1B]
  | .rrH => [0xCB, 0x1C] | .rrL => [0xCB, 0x1D] | .rrAtHl => [0xCB, 0x1E] | .rrA => [0xCB, 0x1F]
  | .slaB => [0xCB, 0x20] | .slaC => [0xCB, 0x21] | .slaD => [0xCB, 0x22] | .slaE => [0xCB, 0x23]
  | .slaH => [0xCB, 0x24] | .slaL => [0xCB, 0x25] | .slaAtHl => [0xCB, 0x26] | .slaA => [0xCB, 0x27]
  | .sraB => [0xCB, 0x28] | .sraC => [0xCB, 0x29] | .sraD => [0xCB, 0x2A] | .sraE => [0xCB, 0x2B]
  | .sraH => [0xCB, 0x2C] | .sraL => [0xCB, 0x2D] | .sraAtHl => [0xCB, 0x2E] | .sraA => [0xCB, 0x2F]
  | .swapB => [0xCB, 0x30] | .swapC => [0xCB, 0x31] | .swapD => [0xCB, 0x32] | .swapE => [0xCB, 0x33]
  | .swapH => [0xCB, 0x34] | .swapL => [0xCB, 0x35] | .swapAtHl => [0xCB, 0x36] | .swapA => [0xCB, 0x37]
  | .srlB => [0xCB, 0x38] | .srlC => [0xCB, 0x39] | .srlD => [0xCB, 0x3A] | .srlE => [0xCB, 0x3B]
  | .srlH => [0xCB, 0x3C] | .srlL => [0xCB, 0x3D] | .srlAtHl => [0xCB, 0x3E] | .srlA => [0xCB, 0x3F]
  | .bit0B => [0xCB, 0x40] | .bit0C => [0xCB, 0x41] | .bit0D => [0xCB, 0x42] | .bit0E => [0xCB, 0x43]
  | .bit0H => [0xCB, 0x44] | .bit0L => [0xCB, 0x45] | .bit0AtHl => [0xCB, 0x46] | .bit0A => [0xCB, 0x47]
  | .bit1B => [0xCB, 0x48] | .bit1C => [0xCB, 0x49] | .bit1D => [0xCB, 0x4A] | .bit1E => [0xCB, 0x4B]
  | .bit1H => [0xCB, 0x4C] | .bit1L => [0xCB, 0x4D] | .bit1AtHl => [0xCB, 0x4E] | .bit1A => [0xCB, 0x4F]
  | .bit2B => [0xCB, 0x50] | .bit2C => [0xCB, 0x51] | .bit2D => [0xCB, 0x52] | .bit2E => [0xCB, 0x53]
  | .bit2H => [0xCB, 0x54] | .bit2L => [0xCB, 0x55] | .bit2AtHl => [0xCB, 0x56] | .bit2A => [0xCB, 0x57]
  | .bit3B => [0xCB, 0x58] | .bit3C => [0xCB, 0x59] | .bit3D => [0xCB, 0x5A] | .bit3E => [0xCB, 0x5B]
  | .bit3H => [0xCB, 0x5C] | .bit3L => [0xCB, 0x5D] | .bit3AtHl => [0xCB, 0x5E] | .bit3A => [0xCB, 0x5F]
  | .bit4B => [0xCB, 0x60] | .bit4C => [0xCB, 0x61] | .bit4D => [0xCB, 0x62] | .bit4E => [0xCB, 0x63]
  | .bit4H => [0xCB, 0x64] | .bit4L => [0xCB, 0x65] | .bit4AtHl => [0xCB, 0x66] | .bit4A => [0xCB, 0x67]
  | .bit5B => [0xCB, 0x68] | .bit5C => [0xCB, 0x69] | .bit5D => [0xCB, 0x6A] | .bit5E => [0xCB, 0x6B]
  | .bit5H => [0xCB, 0x6C] | .bit5L => [0xCB, 0x6D] | .bit5AtHl => [0xCB, 0x6E] | .bit5A => [0xCB, 0x6F]
  | .bit6B => [0xCB, 0x70] | .bit6C => [0xCB, 0x71] | .bit6D => [0xCB, 0x72] | .bit6E => [0xCB, 0x73]
  | .bit6H => [0xCB, 0x74] | .bit6L => [0xCB, 0x75] | .bit6AtHl => [0xCB, 0x76] | .bit6A => [0xCB, 0x77]
  | .bit7B => [0xCB, 0x78] | .bit7C => [0xCB, 0x79] | .bit7D => [0xCB, 0x7A] | .bit7E => [0xCB, 0x7B]
  | .bit7H => [0xCB, 0x7C] | .bit7L => [0xCB, 0x7D] | .bit7AtHl => [0xCB, 0x7E] | .bit7A => [0xCB, 0x7F]
  | .res0B => [0xCB, 0x80] | .res0C => [0xCB, 0x81] | .res0D => [0xCB, 0x82] | .res0E => [0xCB, 0x83]
  | .res0H => [0xCB, 0x84] | .res0L => [0xCB, 0x85] | .res0AtHl => [0xCB, 0x86] | .res0A => [0xCB, 0x87]
  | .res1B => [0xCB, 0x88] | .res1C => [0xCB, 0x89] | .res1D => [0xCB, 0x8A] | .res1E => [0xCB, 0x8B]
  | .res1H => [0xCB, 0x8C] | .res1L => [0xCB, 0x8D] | .res1AtHl => [0xCB, 0x8E] | .res1A => [0xCB, 0x8F]
  | .res2B => [0xCB, 0x90] | .res2C => [0xCB, 0x91] | .res2D => [0xCB, 0x92] | .res2E => [0xCB, 0x93]
  | .res2H => [0xCB, 0x94] | .res2L => [0xCB, 0x95] | .res2AtHl => [0xCB, 0x96] | .res2A => [0xCB, 0x97]
  | .res3B => [0xCB, 0x98] | .res3C => [0xCB, 0x99] | .res3D => [0xCB, 0x9A] | .res3E => [0xCB, 0x9B]
  | .res3H => [0xCB, 0x9C] | .res3L => [0xCB, 0x9D] | .res3AtHl => [0xCB, 0x9E] | .res3A => [0xCB, 0x9F]
  | .res4B => [0xCB, 0xA0] | .res4C => [0xCB, 0xA1] | .res4D => [0xCB, 0xA2] | .res4E => [0xCB, 0xA3]
  | .res4H => [0xCB, 0xA4] | .res4L => [0xCB, 0xA5] | .res4AtHl => [0xCB, 0xA6] | .res4A => [0xCB, 0xA7]
  | .res5B => [0xCB, 0xA8] | .res5C => [0xCB, 0xA9] | .res5D => [0xCB, 0xAA] | .res5E => [0xCB, 0xAB]
  | .res5H => [0xCB, 0xAC] | .res5L => [0xCB, 0xAD] | .res5AtHl => [0xCB, 0xAE] | .res5A => [0xCB, 0xAF]
  | .res6B => [0xCB, 0xB0] | .res6C => [0xCB, 0xB1] | .res6D => [0xCB, 0xB2] | .res6E => [0xCB, 0xB3]
  | .res6H => [0xCB, 0xB4] | .res6L => [0xCB, 0xB5] | .res6AtHl => [0xCB, 0xB6] | .res6A => [0xCB, 0xB7]
  | .res7B => [0xCB, 0xB8] | .res7C => [0xCB, 0xB9] | .res7D => [0xCB, 0xBA] | .res7E => [0xCB, 0xBB]
  | .res7H => [0xCB, 0xBC] | .res7L => [0xCB, 0xBD] | .res7AtHl => [0xCB, 0xBE] | .res7A => [0xCB, 0xBF]
  | .set0B => [0xCB, 0xC0] | .set0C => [0xCB, 0xC1] | .set0D => [0xCB, 0xC2] | .set0E => [0xCB, 0xC3]
  | .set0H => [0xCB, 0xC4] | .set0L => [0xCB, 0xC5] | .set0AtHl => [0xCB, 0xC6] | .set0A => [0xCB, 0xC7]
  | .set1B => [0xCB, 0xC8] | .set1C => [0xCB, 0xC9] | .set1D => [0xCB, 0xCA] | .set1E => [0xCB, 0xCB]
  | .set1H => [0xCB, 0xCC] | .set1L => [0xCB, 0xCD] | .set1AtHl => [0xCB, 0xCE] | .set1A => [0xCB, 0xCF]
  | .set2B => [0xCB, 0xD0] | .set2C => [0xCB, 0xD1] | .set2D => [0xCB, 0xD2] | .set2E => [0xCB, 0xD3]
  | .set2H => [0xCB, 0xD4] | .set2L => [0xCB, 0xD5] | .set2AtHl => [0xCB, 0xD6] | .set2A => [0xCB, 0xD7]
  | .set3B => [0xCB, 0xD8] | .set3C => [0xCB, 0xD9] | .set3D => [0xCB, 0xDA] | .set3E => [0xCB, 0xDB]
  | .set3H => [0xCB, 0xDC] | .set3L => [0xCB, 0xDD] | .set3AtHl => [0xCB, 0xDE] | .set3A => [0xCB, 0xDF]
  | .set4B => [0xCB, 0xE0] | .set4C => [0xCB, 0xE1] | .set4D => [0xCB, 0xE2] | .set4E => [0xCB, 0xE3]
  | .set4H => [0xCB, 0xE4] | .set4L => [0xCB, 0xE5] | .set4AtHl => [0xCB, 0xE6] | .set4A => [0xCB, 0xE7]
  | .set5B => [0xCB, 0xE8] | .set5C => [0xCB, 0xE9] | .set5D => [0xCB, 0xEA] | .set5E => [0xCB, 0xEB]
  | .set5H => [0xCB, 0xEC] | .set5L => [0xCB, 0xED] | .set5AtHl => [0xCB, 0xEE] | .set5A => [0xCB, 0xEF]
  | .set6B => [0xCB, 0xF0] | .set6C => [0xCB, 0xF1] | .set6D => [0xCB, 0xF2] | .set6E => [0xCB, 0xF3]
  | .set6H => [0xCB, 0xF4] | .set6L => [0xCB, 0xF5] | .set6AtHl => [0xCB, 0xF6] | .set6A => [0xCB, 0xF7]
  | .set7B => [0xCB, 0xF8] | .set7C => [0xCB, 0xF9] | .set7D => [0xCB, 0xFA] | .set7E => [0xCB, 0xFB]
  | .set7H => [0xCB, 0xFC] | .set7L => [0xCB, 0xFD] | .set7AtHl => [0xCB, 0xFE] | .set7A => [0xCB, 0xFF]

/-- The bytes of an instruction word whose bits are numbered as spec/opcode_table.json numbers them (bit 0 is
the least significant bit of the first byte), followed by zeros up to the longest instruction (three bytes,
R120). A row of the second-byte map has its prefix byte `0xCB` in bits 7:0 and its second opcode in bits 15:8. -/
def tableBytes (nbits w : Nat) : List Byte :=
  let v := w % 2 ^ nbits
  [BitVec.ofNat 8 v, BitVec.ofNat 8 (v / 256), BitVec.ofNat 8 (v / 65536)]

/-- The instruction the decoder reads from a table word; `none` where it refuses. -/
def decodeTableWord (nbits w : Nat) : Option Instr :=
  match decode (tableBytes nbits w) with
  | .ok (i, _) => some i
  | .error _ => none

end Sys2Proof
end

