-- ==== Sys2Proof/Config.lean ====
section
/-! DEFINITION. The parameters of spec/00_scope.md R9 that an implementation fixes, as plain data, and the
model's free values (constants without a body). A `Params` record is a field of the state that nothing in a
step changes, so a statement over every state is a statement over every choice of the parameters. -/

namespace Sys2Proof

/-- `HALT_PENDING` (R9, R321): what `HALT` does when an enabled interrupt is already requested. -/
inductive HaltPending where
  | fallthrough
  | repeatByte
  deriving DecidableEq, Repr

/-- `UNMAPPED_POLICY` (R9, R95): what an access to an address without a device does. -/
inductive UnmappedPolicy where
  | ffIgnore
  | fault
  deriving DecidableEq, Repr

/-- `ILLEGAL_POLICY` (R9, D16): what an undefined opcode does; the spec gives it one value. -/
inductive IllegalPolicy where
  | fault
  deriving DecidableEq, Repr

/-- `M3_EXTRA` (R9, R405): extra mode-3 cycles by the number of sprites on the line.
`standard` is the spec's default function; `table` lists the cost for 0, 1, 2, ... sprites (0 past its end). -/
inductive M3Extra where
  | standard
  | table (costs : List Nat)
  deriving DecidableEq, Repr

/-- `CYCLES` (R9, R570): the cost of each instruction. `standard` is the `cycles` column of
spec/opcode_table.json; `table` lists, by first opcode byte, the not-taken and the taken costs, and by second
opcode byte the costs of the `0xCB` pairs (4 past the end of a list). -/
inductive CycleCosts where
  | standard
  | table (notTaken taken second : List Nat)
  deriving DecidableEq, Repr

/-- `SERIAL_IN` (R9, R377), a function from an index to a bit. `bits first rest` is the function that gives the bits of
`first` and then `rest` for ever; `any` is an arbitrary function, `Config.serialIn` (log entry 24). -/
inductive SerialIn where
  | bits (first : List Bool) (rest : Bool)
  | any
  deriving DecidableEq, Repr

/-- The parameters of R9 that are choices of the implementation or of the launch. -/
structure Params where
  /-- `HALT_PENDING` -/
  haltPending : HaltPending
  /-- `RETI_DELAY`: false is 0, true is 1 -/
  retiDelay : Bool
  /-- `ILLEGAL_POLICY` -/
  illegal : IllegalPolicy
  /-- `UNMAPPED_POLICY` -/
  unmapped : UnmappedPolicy
  /-- `M3_EXTRA` -/
  m3Extra : M3Extra
  /-- `LY153_ZERO_AT` -/
  ly153ZeroAt : Nat
  /-- `SERIAL_IN` -/
  serialIn : SerialIn
  /-- `CYCLES` -/
  cycles : CycleCosts
  deriving DecidableEq, Repr

/-- The defaults of R9; `HALT_PENDING` depends on the mode (R321 d, e). -/
def Params.default (color : Bool) : Params where
  haltPending := if color then .fallthrough else .repeatByte
  retiDelay := false
  illegal := .fault
  unmapped := .ffIgnore
  m3Extra := .standard
  ly153ZeroAt := 448
  serialIn := .bits [] true
  cycles := .standard

/-- The function `SERIAL_IN` of a launch that chooses `SerialIn.any` (R377, log entry 24). It has no body: what is
proved with it holds for every function. -/
opaque Config.serialIn : Nat → Bool

/-- FREE VALUE (log entry 8). R504 decrements `env_timer` without giving its width; what a decrement from 0
leaves is not stated. The argument counts the uses, so two uses are unrelated. -/
opaque Config.envTimerBelowZero : Nat → Nat

/-- FREE VALUE (log entry 9). The byte a sprite row computed by R426 reads when its offset lies below
video RAM (the sprite's `Y` was changed after the OAM pre-scan of the line); no rule states it. -/
opaque Config.vramBelow : Nat → Int → Byte

end Sys2Proof
end

