-- ==== Sys2Proof/Machine/State.lean ====
section
/-! DEFINITION. The state of the machine (spec/10_state.md R42 and the rules it lists), as plain data, and its
value after reset. Each store of bytes is a `Memory`: a list of (address, byte) pairs in one canonical form. -/

namespace Sys2Proof.Machine

/-- A store of bytes: cells in strictly rising order of address, none holding 0, the byte an unlisted address
reads as (log entry 1). -/
abbrev Memory := List Host.Cell

/-- Why a step or a host operation ends in a fault (spec/60_exceptions.md R360). Each is SAFE: it is the
spec's own fault and has no successor state. -/
inductive Fault where
  /-- one of the eleven unassigned first bytes was fetched as an opcode; raised by `exec` of the ILLEGAL rows (R326); safe -/
  | illegalOpcode (op : Byte)
  /-- `0x10` followed by a byte other than `0x00`; raised by `exec` of `STOP` (R322); safe -/
  | reservedStopOperand (second : Byte)
  /-- an access to an address without a device under `UNMAPPED_POLICY = fault`; raised by any memory access (R95); safe -/
  | busGap (addr : Word)
  /-- the type code of an image offered for insertion is not in the table; raised by the host's insertion only (R453); safe -/
  | unknownCartridgeType (code : Byte)
  deriving DecidableEq, Repr

/-- Why a step is refused. No meaning refuses: `notModelled` is the name of an instruction without a meaning. -/
inductive Refusal where
  /-- the instruction `mnemonic` has no meaning in this model; raised by a refused arm of `exec`; safe -/
  | notModelled (mnemonic : String)
  deriving DecidableEq, Repr

/-- R29. -/
inductive RunState where
  | running | halted | stopped
  deriving DecidableEq, Repr

/-- The processor's own state (R20 to R31). -/
structure Cpu where
  a : Byte
  b : Byte
  c : Byte
  d : Byte
  e : Byte
  h : Byte
  l : Byte
  /-- the flags `Z`, `N`, `H`, `Cf` (R25) -/
  zf : Bool
  nf : Bool
  hf : Bool
  cf : Bool
  sp : Word
  pc : Word
  /-- the interrupt-master-enable flag (R27) -/
  ime : Bool
  /-- the pending-enable delay counter (R28) -/
  imePending : Fin 3
  runState : RunState
  /-- the next opcode fetch does not advance `PC` (R30) -/
  haltRepeat : Bool
  /-- 1 in double-speed mode (R31) -/
  speedShift : Bool
  deriving DecidableEq, Repr

/-- R36, R37. -/
structure Timer where
  divCounter : BitVec 16
  tima : Byte
  tma : Byte
  /-- `TAC[2:0]` -/
  tac : BitVec 3
  ticks : Nat
  deriving DecidableEq, Repr

/-- R39, R375. -/
structure Serial where
  sb : Byte
  /-- `SC[7]`, transfer in progress -/
  scStart : Bool
  /-- `SC[1]`, fast clock (color mode) -/
  scFast : Bool
  /-- `SC[0]`, internal clock -/
  scInternal : Bool
  timer : Nat
  period : Nat
  /-- running index into `SERIAL_IN` -/
  bitsIn : Nat
  deriving DecidableEq, Repr

/-- R40, R380. -/
structure Joypad where
  /-- `P1[5]`: 0 selects the action buttons -/
  p15 : Bool
  /-- `P1[4]`: 0 selects the direction buttons -/
  p14 : Bool
  /-- one bit per logical input, 1 = held -/
  buttons : Byte
  deriving DecidableEq, Repr

/-- The bus registers (R96 to R99). `wbank` is computed from `svbk`. -/
structure BusRegs where
  vbank : Bool
  svbk : BitVec 3
  /-- the last value written to `DMA` -/
  dma : Byte
  hdmaSrc : Word
  hdmaDst : BitVec 13
  hdmaLen : BitVec 7
  hdmaActive : Bool
  /-- what `HDMA5` reads while no transfer is active (R99 gives it case by case) -/
  hdma5Idle : Byte
  deriving DecidableEq, Repr

/-- The modes of the picture generator (R401): 0, 1, 2, 3. -/
inductive PpuMode where
  | hblank | vblank | oamScan | transfer
  deriving DecidableEq, Repr

/-- An output pixel (R431). -/
inductive Pixel where
  | shade (v : BitVec 2)
  | rgb (v : BitVec 15)
  deriving DecidableEq, Repr

/-- An entry of `line_buf` (R401). -/
structure LinePixel where
  ci : BitVec 2
  prio : Bool
  pixel : Pixel
  deriving DecidableEq, Repr

/-- The picture generator (R401). -/
structure Ppu where
  lcdc : Byte
  /-- `STAT[6:3]` -/
  statEn : BitVec 4
  scy : Byte
  scx : Byte
  lyc : Byte
  wy : Byte
  wx : Byte
  bgp : Byte
  obp0 : Byte
  obp1 : Byte
  /-- `BCPS[7]` and `BCPS[5:0]` -/
  bcpsInc : Bool
  bcpsIdx : BitVec 6
  /-- `OCPS[7]` and `OCPS[5:0]` -/
  ocpsInc : Bool
  ocpsIdx : BitVec 6
  bgPal : Memory
  objPal : Memory
  line : Nat
  ly : Byte
  lineCycle : Nat
  mode : PpuMode
  mode3Len : Nat
  spriteList : List Nat
  renderedX : Nat
  lineBuf : List LinePixel
  /-- `frame[0..143][0..159]` -/
  frame : List (List Pixel)
  /-- the frames handed to the host, oldest first (R431) -/
  frames : List (List (List Pixel))
  deriving DecidableEq, Repr

/-- A pulse channel (R503, R504, R510, R511). -/
structure Pulse where
  on : Bool
  duty : BitVec 2
  len : Nat
  lenEn : Bool
  /-- `NRx2`: initial volume, direction, period -/
  nrx2 : Byte
  freq : BitVec 11
  timer : Nat
  dutyPos : Nat
  vol : BitVec 4
  envTimer : Nat
  deriving DecidableEq, Repr

/-- The sweep unit of channel 1 (R505). -/
structure Sweep where
  period : BitVec 3
  neg : Bool
  shift : BitVec 3
  shadow : BitVec 11
  timer : Nat
  enabled : Bool
  deriving DecidableEq, Repr

/-- Channel 3 (R507). -/
structure WaveCh where
  on : Bool
  dac : Bool
  len : Nat
  lenEn : Bool
  waveVol : BitVec 2
  freq : BitVec 11
  timer : Nat
  pos : Nat
  sample : BitVec 4
  deriving DecidableEq, Repr

/-- Channel 4 (R508). -/
structure NoiseCh where
  on : Bool
  len : Nat
  lenEn : Bool
  nr42 : Byte
  nr43 : Byte
  timer : Nat
  vol : BitVec 4
  envTimer : Nat
  lfsr : BitVec 15
  deriving DecidableEq, Repr

/-- The sound generator (R500 to R522). -/
structure Apu where
  power : Bool
  seqCounter : Nat
  seqPos : Nat
  ch1 : Pulse
  sweep : Sweep
  ch2 : Pulse
  ch3 : WaveCh
  ch4 : NoiseCh
  nr50 : Byte
  nr51 : Byte
  waveRam : Memory
  /-- MODEL'S OWN FIELD (log entry 8): how many free values of `Config.envTimerBelowZero` have been used -/
  freeUsed : Nat
  deriving DecidableEq, Repr

/-- The bank controller families (R450). -/
inductive MbcKind where
  | none | mbc1 | mbc2 | mbc3 | mbc5 | mbc5r
  deriving DecidableEq, Repr

/-- `CART` (R450): the image and the fields derived from its header at insertion. Nothing in a step changes it. -/
structure Cart where
  rom : Memory
  romLength : Nat
  kind : MbcKind
  hasRam : Bool
  hasBattery : Bool
  hasRtc : Bool
  hasRumble : Bool
  romBanks : Nat
  ramSize : Nat
  colorMode : Bool
  deriving DecidableEq, Repr

/-- The registers of the bank controller (R460 to R470). -/
structure Mbc where
  romLo : Byte
  romHi : Bool
  hi2 : BitVec 2
  bankMode : Bool
  ramSelect : BitVec 4
  ramEnabled : Bool
  rumble : Bool
  deriving DecidableEq, Repr

/-- One copy of the clock registers (R476). -/
structure RtcRegs where
  sec : Nat
  min : Nat
  hour : Nat
  day : BitVec 9
  halt : Bool
  carry : Bool
  deriving DecidableEq, Repr

/-- The real-time clock (R476). -/
structure Rtc where
  live : RtcRegs
  latched : RtcRegs
  latchPrev : Byte
  lastWall : Nat
  deriving DecidableEq, Repr

/-- The whole state of the machine (R42). -/
structure State where
  cpu : Cpu
  /-- R32; set by the host interface when a step faulted -/
  fault : Option Fault
  /-- cycles executed since reset (R33) -/
  clock : Nat
  /-- `IF[4:0]` (R34) -/
  ifReg : BitVec 5
  /-- `IE` (R35) -/
  ieReg : Byte
  timer : Timer
  /-- `KEY1[0]` (R38) -/
  key1Armed : Bool
  serial : Serial
  joypad : Joypad
  bus : BusRegs
  /-- video RAM: bank `k` at `0x2000 * k` (R71, R85) -/
  vram : Memory
  /-- work RAM: bank `k` at `0x1000 * k` (R71, R87) -/
  wram : Memory
  /-- OAM (R89) -/
  oam : Memory
  /-- high RAM, from 0 (R91) -/
  hram : Memory
  ppu : Ppu
  apu : Apu
  cart : Cart
  mbc : Mbc
  /-- cartridge RAM, or the cells of `MBC2` (R467, R471) -/
  cram : Memory
  rtc : Rtc
  /-- the parameters of R9; nothing in a step changes them -/
  params : Params
  deriving DecidableEq, Repr

/-- `RESET` (R9, R552): "a record with a value for every piece of state" at the first step. The cartridge and the
other parameters are no part of it (R18); the fields are those of `State`. -/
structure Reset where
  cpu : Cpu
  fault : Option Fault
  clock : Nat
  ifReg : BitVec 5
  ieReg : Byte
  timer : Timer
  key1Armed : Bool
  serial : Serial
  joypad : Joypad
  bus : BusRegs
  vram : Memory
  wram : Memory
  oam : Memory
  hram : Memory
  ppu : Ppu
  apu : Apu
  mbc : Mbc
  cram : Memory
  /-- `lastWall` is `WALL_CLOCK(0)`, or the timestamp of a loaded battery blob (R490) -/
  rtc : Rtc
  deriving DecidableEq, Repr

/-- The state at the first step (R552) with the cartridge `c`, the parameters `p` and the record `r`. -/
def State.launch (c : Cart) (p : Params) (r : Reset) : State where
  cpu := r.cpu
  fault := r.fault
  clock := r.clock
  ifReg := r.ifReg
  ieReg := r.ieReg
  timer := r.timer
  key1Armed := r.key1Armed
  serial := r.serial
  joypad := r.joypad
  bus := r.bus
  vram := r.vram
  wram := r.wram
  oam := r.oam
  hram := r.hram
  ppu := r.ppu
  apu := r.apu
  cart := c
  mbc := r.mbc
  cram := r.cram
  rtc := r.rtc
  params := p

/-- The processor at reset (R42, the columns for monochrome and color). -/
def Cpu.launch (color : Bool) : Cpu where
  a := if color then 0x11 else 0x01
  b := 0x00
  c := if color then 0x00 else 0x13
  d := if color then 0xFF else 0x00
  e := if color then 0x56 else 0xD8
  h := if color then 0x00 else 0x01
  l := if color then 0x0D else 0x4D
  zf := true
  nf := false
  hf := !color
  cf := !color
  sp := 0xFFFE
  pc := 0x0100
  ime := false
  imePending := 0
  runState := .running
  haltRepeat := false
  speedShift := false

/-- The picture generator at reset (R440; the palettes, `line_buf` and `frame` are log entry 3). -/
def Ppu.launch : Ppu where
  lcdc := 0x91
  statEn := 0
  scy := 0
  scx := 0
  lyc := 0
  wy := 0
  wx := 0
  bgp := 0xFC
  obp0 := 0xFF
  obp1 := 0xFF
  bcpsInc := false
  bcpsIdx := 0
  ocpsInc := false
  ocpsIdx := 0
  bgPal := []
  objPal := []
  line := 0
  ly := 0
  lineCycle := 0
  mode := .oamScan
  mode3Len := 172
  spriteList := []
  renderedX := 0
  lineBuf := List.replicate 160 { ci := 0, prio := false, pixel := .shade 0 }
  frame := List.replicate 144 (List.replicate 160 (.shade 0))
  frames := []

/-- A pulse channel at reset (R540). -/
def Pulse.launch (on : Bool) (nrx2 : Byte) (vol : BitVec 4) (envTimer : Nat) : Pulse where
  on := on
  duty := 2
  len := 1
  lenEn := false
  nrx2 := nrx2
  freq := 0x7FF
  timer := 4
  dutyPos := 0
  vol := vol
  envTimer := envTimer

/-- The sound generator at reset (R540; `env_timer` of channels 2 and 4 is log entry 5, wave RAM log entry 1). -/
def Apu.launch : Apu where
  power := true
  seqCounter := 0
  seqPos := 0
  ch1 := Pulse.launch true 0xF3 15 3
  sweep := { period := 0, neg := false, shift := 0, shadow := 0x7FF, timer := 8, enabled := false }
  ch2 := Pulse.launch false 0x00 0 0
  ch3 := { on := false, dac := false, len := 1, lenEn := false, waveVol := 0, freq := 0x7FF, timer := 2, pos := 0,
           sample := 0 }
  ch4 := { on := false, len := 1, lenEn := false, nr42 := 0, nr43 := 0, timer := 8, vol := 0, envTimer := 0,
           lfsr := 0x7FFF }
  nr50 := 0x77
  nr51 := 0xF3
  waveRam := []
  freeUsed := 0

/-- The bank controller at reset (R490). -/
def Mbc.launch : Mbc where
  romLo := 1
  romHi := false
  hi2 := 0
  bankMode := false
  ramSelect := 0
  ramEnabled := false
  rumble := false

/-- A 32 KiB image of zero bytes: type code `0x00`, ROM-size code `0x00`, monochrome (log entry 2). -/
def Cart.blank : Cart where
  rom := []
  romLength := 0x8000
  kind := .none
  hasRam := false
  hasBattery := false
  hasRtc := false
  hasRumble := false
  romBanks := 2
  ramSize := 0
  colorMode := false

/-- A clock at zero. -/
def RtcRegs.zero : RtcRegs where
  sec := 0
  min := 0
  hour := 0
  day := 0
  halt := false
  carry := false

/-- The default instance of `RESET` (R552: R42, R97, R440, R490, R540), with zero for every value the spec leaves
unspecified (log entries 1, 3, 4, 5). `wall` is `WALL_CLOCK(0)`, the reset value of `rtc_last_wall` (R490). -/
def Reset.postBoot (color : Bool) (wall : Nat) : Reset where
  cpu := Cpu.launch color
  fault := none
  clock := 0
  ifReg := 0b00001
  ieReg := 0x00
  timer := { divCounter := 0, tima := 0, tma := 0, tac := 0, ticks := 0 }
  key1Armed := false
  serial := { sb := 0, scStart := false, scFast := false, scInternal := false, timer := 0, period := 512, bitsIn := 0 }
  joypad := { p15 := false, p14 := false, buttons := 0 }
  bus := { vbank := false, svbk := 0, dma := 0xFF, hdmaSrc := 0, hdmaDst := 0, hdmaLen := 0, hdmaActive := false,
           hdma5Idle := 0xFF }
  vram := []
  wram := []
  oam := []
  hram := []
  ppu := Ppu.launch
  apu := Apu.launch
  mbc := Mbc.launch
  cram := []
  rtc := { live := RtcRegs.zero, latched := RtcRegs.zero, latchPrev := 0xFF, lastWall := wall }

/-- The machine right after reset (R552): the blank cartridge (log entry 2), the defaults of R9, and a wall clock that
starts at 0 (log entry 4). -/
def State.reset : State := State.launch Cart.blank (Params.default false) (Reset.postBoot false 0)

/-- What `exec` and `step` answer. -/
abbrev Result := Host.Outcome State Fault Refusal

end Sys2Proof.Machine
end

