-- ==== Sys2Proof/Machine/Flags.lean ====
section
/-! DEFINITION. Every flag computation of the spec: the helpers of spec/42_alu8.md R220, spec/43_alu16.md R264,
spec/44_rotate_shift_bit.md R270, `DAA` (R249), and the packed register `F` (spec/10_state.md R21). Operands are
taken to naturals or integers, the exact result is computed, and it is narrowed at the end. -/

namespace Sys2Proof.Machine

/-- The four flags. -/
structure Flags where
  z : Bool
  n : Bool
  h : Bool
  c : Bool
  deriving DecidableEq, Repr

/-- The flags of a processor. -/
def Cpu.flags (p : Cpu) : Flags := { z := p.zf, n := p.nf, h := p.hf, c := p.cf }

/-- The flags replaced. -/
def setFlags (f : Flags) (s : State) : State :=
  { s with cpu := { s.cpu with zf := f.z, nf := f.n, hf := f.h, cf := f.c } }

/-- `F` read as a byte (R21). -/
def Flags.pack (f : Flags) : Byte := bitAt f.z 7 ||| bitAt f.n 6 ||| bitAt f.h 5 ||| bitAt f.c 4

/-- A byte written to `F` (R21): the low four bits are discarded. -/
def Flags.unpack (v : Byte) : Flags := { z := bit v 7, n := bit v 6, h := bit v 5, c := bit v 4 }

/-- `Add8(a, b, c)` of R220. -/
def add8 (a b : Byte) (c : Bool) : Byte × Flags :=
  let r := BitVec.ofNat 8 (a.toNat + b.toNat + c.toNat)
  (r, { z := r == 0, n := false, h := decide (15 < a.toNat % 16 + b.toNat % 16 + c.toNat),
        c := decide (255 < a.toNat + b.toNat + c.toNat) })

/-- `Sub8(a, b, c)` of R220. -/
def sub8 (a b : Byte) (c : Bool) : Byte × Flags :=
  let r := BitVec.ofInt 8 ((a.toNat : Int) - b.toNat - c.toNat)
  (r, { z := r == 0, n := true, h := decide (a.toNat % 16 < b.toNat % 16 + c.toNat),
        c := decide (a.toNat < b.toNat + c.toNat) })

/-- The flags of `AND` (R233). -/
def andFlags (r : Byte) : Flags := { z := r == 0, n := false, h := true, c := false }

/-- The flags of `XOR` (R236) and `OR` (R239). -/
def orFlags (r : Byte) : Flags := { z := r == 0, n := false, h := false, c := false }

/-- The value and the flags of an ALU operation on `A = a` and operand `x` with carry-in `cin` (R221 to R244);
`CP` answers `a` itself as the value (R242: `A` is not written). -/
def alu8 (op : AluOp) (a x : Byte) (cin : Bool) : Byte × Flags :=
  match op with
  | .add => add8 a x false
  | .adc => add8 a x cin
  | .sub => sub8 a x false
  | .sbc => sub8 a x cin
  | .and => (a &&& x, andFlags (a &&& x))
  | .xor => (a ^^^ x, orFlags (a ^^^ x))
  | .or => (a ||| x, orFlags (a ||| x))
  | .cp => (a, (sub8 a x false).2)

/-- `INC` on a byte (R245): `Cf` keeps its value `c`. -/
def inc8 (v : Byte) (c : Bool) : Byte × Flags :=
  (v + 1, { z := v + 1 == 0, n := false, h := decide (v.toNat % 16 = 15), c := c })

/-- `DEC` on a byte (R247): `Cf` keeps its value `c`. -/
def dec8 (v : Byte) (c : Bool) : Byte × Flags :=
  (v - 1, { z := v - 1 == 0, n := true, h := decide (v.toNat % 16 = 0), c := c })

/-- The carry after `DAA` (R249). -/
def daaCarry (a : Byte) (f : Flags) : Bool := if f.n then f.c else f.c || decide (0x99 < a.toNat)

/-- The adjusted accumulator of R249, before the reduction modulo 256. -/
def daaValue (a : Byte) (f : Flags) : Int :=
  if f.n then (a.toNat : Int) - (if f.c then 0x60 else 0) - (if f.h then 0x06 else 0)
  else (a.toNat : Int) + (if f.c || decide (0x99 < a.toNat) then 0x60 else 0) +
    (if f.h || decide (9 < a.toNat % 16) then 0x06 else 0)

/-- `DAA` (R249). -/
def daa8 (a : Byte) (f : Flags) : Byte × Flags :=
  let r := BitVec.ofInt 8 (daaValue a f)
  (r, { z := r == 0, n := f.n, h := false, c := daaCarry a f })

/-- The result and the new carry of a rotate or shift (R270). -/
def rotate8 (op : RotOp) (v : Byte) (c : Bool) : Byte × Bool :=
  match op with
  | .rlc => ((v <<< 1) ||| bitAt (bit v 7) 0, bit v 7)
  | .rrc => ((v >>> 1) ||| bitAt (bit v 0) 7, bit v 0)
  | .rl => ((v <<< 1) ||| bitAt c 0, bit v 7)
  | .rr => ((v >>> 1) ||| bitAt c 7, bit v 0)
  | .sla => (v <<< 1, bit v 7)
  | .sra => ((v >>> 1) ||| (v &&& 0x80), bit v 0)
  | .swap => ((v <<< 4) ||| (v >>> 4), false)
  | .srl => (v >>> 1, bit v 0)

/-- The flags of a `CB`-prefixed rotate, shift or `SWAP` (R270). -/
def rotateFlags (r : Byte × Bool) : Flags := { z := r.1 == 0, n := false, h := false, c := r.2 }

/-- The flags of the four one-byte accumulator rotates (R270): `Z` is 0 whatever the result. -/
def accRotateFlags (r : Byte × Bool) : Flags := { z := false, n := false, h := false, c := r.2 }

/-- The flags of `BIT` (R291): `Cf` keeps its value `c`. -/
def bitFlags (v : Byte) (n : Nat) (c : Bool) : Flags := { z := !bit v n, n := false, h := true, c := c }

/-- `ADD HL,rr` (R260): `Z` keeps its value `z`. -/
def add16 (a b : Word) (z : Bool) : Word × Flags :=
  (BitVec.ofNat 16 (a.toNat + b.toNat),
   { z := z, n := false, h := decide (0x0FFF < a.toNat % 4096 + b.toNat % 4096), c := decide (0xFFFF < a.toNat + b.toNat) })

/-- `AddSpE8(sp, e)` of R264 with the flags of R263 and R203. -/
def addSpE8 (sp : Word) (e : Byte) : Word × Flags :=
  (BitVec.ofInt 16 ((sp.toNat : Int) + e.toInt),
   { z := false, n := false, h := decide (15 < sp.toNat % 16 + e.toNat % 16),
     c := decide (255 < sp.toNat % 256 + e.toNat) })

end Sys2Proof.Machine
end

