-- ==== Sys2Proof/Machine/Operands.lean ====
section
/-! DEFINITION. Every operand form: the 8-bit registers (spec/30_encoding.md R123), the register pairs and `SP`
(R124, R125), the conditions (R126, R300), bit numbers and restart targets. Memory operands are reached through
`HL`, `BC`, `DE`, an absolute address or the high page; Ops.lean reads and writes them. -/

namespace Sys2Proof.Machine

/-- Read an 8-bit register (R13 `x[i]`). -/
def getReg (r : Reg8) (s : State) : Byte :=
  match r with
  | .b => s.cpu.b | .c => s.cpu.c | .d => s.cpu.d | .e => s.cpu.e | .h => s.cpu.h | .l => s.cpu.l | .a => s.cpu.a

/-- Write an 8-bit register (R13 `x[i] <- v`). -/
def setReg (r : Reg8) (v : Byte) (s : State) : State :=
  match r with
  | .b => { s with cpu := { s.cpu with b := v } }
  | .c => { s with cpu := { s.cpu with c := v } }
  | .d => { s with cpu := { s.cpu with d := v } }
  | .e => { s with cpu := { s.cpu with e := v } }
  | .h => { s with cpu := { s.cpu with h := v } }
  | .l => { s with cpu := { s.cpu with l := v } }
  | .a => { s with cpu := { s.cpu with a := v } }

/-- The pair `BC` (R22). -/
def bc (s : State) : Word := word s.cpu.b s.cpu.c

/-- The pair `DE` (R22). -/
def de (s : State) : Word := word s.cpu.d s.cpu.e

/-- The pair `HL` (R22). -/
def hl (s : State) : Word := word s.cpu.h s.cpu.l

/-- The pair `AF` (R21, R22). -/
def af (s : State) : Word := word s.cpu.a s.cpu.flags.pack

/-- Write the pair `BC`. -/
def setBc (v : Word) (s : State) : State := { s with cpu := { s.cpu with b := hiByte v, c := loByte v } }

/-- Write the pair `DE`. -/
def setDe (v : Word) (s : State) : State := { s with cpu := { s.cpu with d := hiByte v, e := loByte v } }

/-- Write the pair `HL`. -/
def setHl (v : Word) (s : State) : State := { s with cpu := { s.cpu with h := hiByte v, l := loByte v } }

/-- Write the pair `AF` (R21, R207). -/
def setAf (v : Word) (s : State) : State :=
  setFlags (Flags.unpack (loByte v)) { s with cpu := { s.cpu with a := hiByte v } }

/-- Write `SP`. -/
def setSp (v : Word) (s : State) : State := { s with cpu := { s.cpu with sp := v } }

/-- Write `PC`. -/
def setPc (v : Word) (s : State) : State := { s with cpu := { s.cpu with pc := v } }

/-- Read a 16-bit operand of field `rr` (R124). -/
def getPair (r : Reg16) (s : State) : Word :=
  match r with
  | .bc => bc s | .de => de s | .hl => hl s | .sp => s.cpu.sp

/-- Write a 16-bit operand of field `rr` (R124). -/
def setPair (r : Reg16) (v : Word) (s : State) : State :=
  match r with
  | .bc => setBc v s | .de => setDe v s | .hl => setHl v s | .sp => setSp v s

/-- Read a pair of field `qq` (R125). -/
def getStackPair (r : StackPair) (s : State) : Word :=
  match r with
  | .bc => bc s | .de => de s | .hl => hl s

/-- Write a pair of field `qq` (R125). -/
def setStackPair (r : StackPair) (v : Word) (s : State) : State :=
  match r with
  | .bc => setBc v s | .de => setDe v s | .hl => setHl v s

/-- `cond(cc)` of R300. -/
def condition (cc : Cond) (s : State) : Bool :=
  match cc with
  | .nz => !s.cpu.zf | .z => s.cpu.zf | .nc => !s.cpu.cf | .c => s.cpu.cf

/-- A bit number as a number. -/
def bitIndex (n : BitNo) : Nat :=
  match n with
  | .n0 => 0 | .n1 => 1 | .n2 => 2 | .n3 => 3 | .n4 => 4 | .n5 => 5 | .n6 => 6 | .n7 => 7

/-- `v & ~(1 << b)` of R293. -/
def clearBit (v : Byte) (n : BitNo) : Byte := v &&& ~~~(1#8 <<< bitIndex n)

/-- `v | (1 << b)` of R295. -/
def setBit (v : Byte) (n : BitNo) : Byte := v ||| (1#8 <<< bitIndex n)

/-- The address of a restart target, `8 * ttt` (R310). -/
def restartAddress (t : RstTarget) : Word :=
  match t with
  | .t00 => 0x0000 | .t08 => 0x0008 | .t10 => 0x0010 | .t18 => 0x0018
  | .t20 => 0x0020 | .t28 => 0x0028 | .t30 => 0x0030 | .t38 => 0x0038

/-- The byte an illegal row is named by (R132). -/
def illegalByte (b : IllegalByte) : Byte :=
  match b with
  | .xD3 => 0xD3 | .xDB => 0xDB | .xDD => 0xDD | .xE3 => 0xE3 | .xE4 => 0xE4 | .xEB => 0xEB
  | .xEC => 0xEC | .xED => 0xED | .xF4 => 0xF4 | .xFC => 0xFC | .xFD => 0xFD

end Sys2Proof.Machine
end

