-- ==== Sys2Proof/Machine/Cycles.lean ====
section
/-! DEFINITION. The cost of an instruction in cycles: the `Cycles:` line of each rule (the `cycles` column of
spec/opcode_table.json), or the table given by the parameter `CYCLES` (R9, R570). -/

namespace Sys2Proof.Machine

/-- The condition of a conditional form (R300); any other form is always "taken". -/
def conditionOf (i : Instr) : Option Cond :=
  match i.form with
  | .jpIf cc _ => some cc
  | .jrIf cc _ => some cc
  | .callIf cc _ => some cc
  | .retIf cc => some cc
  | _ => none

/-- What the Operation of `i` does with its condition in state `s`; no conditional instruction changes a flag. -/
def taken (i : Instr) (s : State) : Bool :=
  match conditionOf i with
  | some cc => condition cc s
  | none => true

/-- The cost of a second-byte instruction (R275 to R296): 8 on a register, 12 for `BIT b,(HL)`, 16 otherwise. -/
def secondCost (op2 : Byte) : Nat :=
  if Decode.fieldZ op2 = 6 then (if Decode.fieldX op2 = 1 then 12 else 16) else 8

/-- The cost on the `Cycles:` line of a form's rule. -/
def formCycles (taken : Bool) (f : Form) : Nat :=
  match f with
  | .ldReg .. => 4 | .ldImm .. => 8 | .ldFromHl .. => 8 | .ldToHl .. => 8
  | .ldToHlImm .. => 12 | .ldAFromBc => 8 | .ldAFromDe => 8 | .ldToBcA => 8 | .ldToDeA => 8
  | .ldAFromAbs .. => 16 | .ldToAbsA .. => 16 | .ldhAFromImm .. => 12 | .ldhToImmA .. => 12
  | .ldhAFromC => 8 | .ldhToCA => 8 | .ldToHlIncA => 8 | .ldAFromHlInc => 8 | .ldToHlDecA => 8 | .ldAFromHlDec => 8
  | .ldPair .. => 12 | .ldToAbsSp .. => 20 | .ldSpHl => 8 | .ldHlSp .. => 12
  | .push .. => 16 | .pushAf => 16 | .pop .. => 12 | .popAf => 12
  | .alu .. => 4 | .aluAtHl .. => 8 | .aluImm .. => 8
  | .incReg .. => 4 | .incAtHl => 12 | .decReg .. => 4 | .decAtHl => 12 | .daa => 4 | .cpl => 4 | .scf => 4 | .ccf => 4
  | .addHl .. => 8 | .incPair .. => 8 | .decPair .. => 8 | .addSp .. => 16
  | .rlca => 4 | .rrca => 4 | .rla => 4 | .rra => 4 | .rot .. => 8 | .rotAtHl .. => 16
  | .bit .. => 8 | .bitAtHl .. => 12 | .res .. => 8 | .resAtHl .. => 16 | .set .. => 8 | .setAtHl .. => 16
  | .jp .. => 16 | .jpIf .. => if taken then 16 else 12 | .jpHl => 4
  | .jr .. => 12 | .jrIf .. => if taken then 12 else 8
  | .call .. => 24 | .callIf .. => if taken then 24 else 12
  | .ret => 16 | .retIf .. => if taken then 20 else 8 | .reti => 16 | .rst .. => 16
  | .nop => 4 | .halt => 4 | .stop .. => 4 | .di => 4 | .ei => 4
  | .prefixCb op2 => secondCost op2
  | .illegal .. => 4

/-- The cost of an instruction in a table given as a parameter, by its bytes. -/
def tableCost (notTakenCosts takenCosts secondCosts : List Nat) (taken : Bool) (bytes : List Byte) : Nat :=
  match bytes with
  | op :: op2 :: _ =>
    if op = 0xCB then secondCosts.getD op2.toNat 4
    else (if taken then takenCosts else notTakenCosts).getD op.toNat 4
  | op :: [] => (if taken then takenCosts else notTakenCosts).getD op.toNat 4
  | [] => 4

/-- The number `n` that the step of `i` passes to `Tick` (R341, R570). -/
def cost (i : Instr) (s : State) : Nat :=
  match s.params.cycles with
  | .standard => formCycles (taken i s) i.form
  | .table notTakenCosts takenCosts secondCosts =>
    tableCost notTakenCosts takenCosts secondCosts (taken i s) (encode i)

end Sys2Proof.Machine
end

