-- ==== Sys2Proof/Machine/Memory.lean ====
section
/-! DEFINITION. Reading and writing a store of bytes in its canonical form: strictly rising addresses, no cell
equal to what an unlisted address reads as (log entry 1). -/

namespace Sys2Proof.Machine

/-- What an address that a store does not list reads as (log entry 1: DESIGN CHOICE, unsafe). -/
def Memory.unlisted : Byte := 0

/-- The byte at address `a` of a store. -/
def Memory.read : Memory → Nat → Byte
  | [], _ => Memory.unlisted
  | (k, v) :: m, a => if k = a then v else Memory.read m a

/-- The store with `v` at address `a`; the canonical form is kept. -/
def Memory.write : Memory → Nat → Byte → Memory
  | [], a, v => if v = Memory.unlisted then [] else [(a, v)]
  | (k, w) :: m, a, v =>
    if k < a then (k, w) :: Memory.write m a v
    else if k = a then (if v = Memory.unlisted then m else (a, v) :: m)
    else if v = Memory.unlisted then (k, w) :: m
    else (a, v) :: (k, w) :: m

/-- The cells of a store from address `lo` on are in canonical form. -/
def Memory.wfFrom : Nat → Memory → Bool
  | _, [] => true
  | lo, (k, v) :: m => decide (lo ≤ k) && v != Memory.unlisted && Memory.wfFrom (k + 1) m

/-- The canonical form. -/
def Memory.wf (m : Memory) : Bool := Memory.wfFrom 0 m

/-- A list of bytes stored from address `a` on. -/
def Memory.storeFrom : Memory → Nat → List Byte → Memory
  | m, _, [] => m
  | m, a, b :: bs => Memory.storeFrom (m.write a b) (a + 1) bs

/-- A list of bytes as a store, the first at address 0. -/
def Memory.ofBytes (bs : List Byte) : Memory := Memory.storeFrom [] 0 bs

/-- The bytes of a store at `a, a + 1, …`, `n` of them. -/
def Memory.bytesFrom (m : Memory) (a : Nat) : Nat → List Byte
  | 0 => []
  | n + 1 => m.read a :: Memory.bytesFrom m (a + 1) n

end Sys2Proof.Machine
end

