-- ==== Sys2Proof/Machine/Apu.lean ====
section
/-! DEFINITION. The sound generator: clocking (spec/63_apu.md R501 to R504), the channels (R505 to R511), the
mixer (R520, R521) and the master register (R522). A counter that a rule decrements is a natural; a decrement
from 0 happens in reachable states only for `env_timer`, where the result is the free value of log entry 8. -/

namespace Sys2Proof.Machine

/-- The registers `0xFF10-0xFF25` (R505 to R508, R520). -/
inductive SoundReg where
  | nr10 | nr11 | nr12 | nr13 | nr14
  | nr21 | nr22 | nr23 | nr24
  | nr30 | nr31 | nr32 | nr33 | nr34
  | nr41 | nr42 | nr43 | nr44
  | nr50 | nr51
  deriving DecidableEq, Repr

/-- `NRx2[2:0]`, the envelope period (R504). -/
def envPeriod (nrx2 : Byte) : Nat := nrx2.toNat % 8

/-- `NRx2[7:3] != 0`: the DAC of channel 1, 2 or 4 is enabled (R511). -/
def dacOn (nrx2 : Byte) : Bool := nrx2 &&& 0xF8 != 0

/-- The volume step of R504 by the direction bit `NRx2[3]`. -/
def volStep (nrx2 : Byte) (vol : BitVec 4) : BitVec 4 :=
  if bit nrx2 3 then (if vol.toNat < 15 then vol + 1 else vol) else (if 0 < vol.toNat then vol - 1 else vol)

/-- `DutyTable` of R510. -/
def dutyTable (duty : BitVec 2) (pos : Nat) : Bool :=
  match duty.toNat with
  | 0 => pos = 7
  | 1 => pos = 0 ∨ pos = 7
  | 2 => pos = 0 ∨ 5 ≤ pos
  | _ => 1 ≤ pos ∧ pos ≤ 6

/-- The period of a pulse channel's timer (R510). -/
def pulsePeriod (freq : BitVec 11) : Nat := (2048 - freq.toNat) * 4

/-- `PulseCycle` of R510. -/
def Pulse.cycle (p : Pulse) : Pulse :=
  if p.timer - 1 = 0 then { p with timer := pulsePeriod p.freq, dutyPos := (p.dutyPos + 1) % 8 }
  else { p with timer := p.timer - 1 }

/-- `digital(ch)` of R510. -/
def Pulse.digital (p : Pulse) : Nat := if dutyTable p.duty p.dutyPos then p.vol.toNat else 0

/-- `LengthClock` of R503 on a pulse channel. -/
def Pulse.lengthClock (p : Pulse) : Pulse :=
  if p.lenEn && decide (0 < p.len) then { p with len := p.len - 1, on := p.on && p.len - 1 != 0 } else p

/-- `EnvelopeClock` of R504 after the decrement gave `d`. -/
def Pulse.envelopeAfter (d : Nat) (p : Pulse) : Pulse :=
  if d = 0 then { p with envTimer := envPeriod p.nrx2, vol := volStep p.nrx2 p.vol } else { p with envTimer := d }

/-- The trigger lines of R505 that R506 shares. -/
def Pulse.trigger (p : Pulse) : Pulse :=
  { p with on := p.on || dacOn p.nrx2, len := if p.len = 0 then 64 else p.len, timer := pulsePeriod p.freq,
           vol := p.nrx2.extractLsb' 4 4, envTimer := envPeriod p.nrx2 }

/-- `NRx1` (R505): duty and length. -/
def Pulse.writeDuty (v : Byte) (p : Pulse) : Pulse :=
  { p with duty := v.extractLsb' 6 2, len := 64 - v.toNat % 64 }

/-- The length half of `NRx1` alone (R522, while the power is off). -/
def Pulse.writeLength (v : Byte) (p : Pulse) : Pulse := { p with len := 64 - v.toNat % 64 }

/-- `NRx2` (R505, R511). -/
def Pulse.writeEnvelope (v : Byte) (p : Pulse) : Pulse := { p with nrx2 := v, on := p.on && dacOn v }

/-- `NRx3`. -/
def Pulse.writeFreqLow (v : Byte) (p : Pulse) : Pulse := { p with freq := p.freq.extractLsb' 8 3 ++ v }

/-- `NRx4` without the trigger. -/
def Pulse.writeFreqHigh (v : Byte) (p : Pulse) : Pulse :=
  { p with lenEn := bit v 6, freq := v.extractLsb' 0 3 ++ p.freq.extractLsb' 0 8 }

/-- `sw_timer`'s reload value (R505). -/
def Sweep.reload (w : Sweep) : Nat := if w.period = 0 then 8 else w.period.toNat

/-- `SweepCalc` of R505. -/
def Sweep.calc (w : Sweep) (f : Nat) : Nat :=
  if w.neg then f - f / 2 ^ w.shift.toNat else f + f / 2 ^ w.shift.toNat

/-- `SweepClock` of R505 when the timer has run out and the sweep is enabled. -/
def sweepStep (ch1 : Pulse) (w : Sweep) : Pulse × Sweep :=
  let n := w.calc w.shadow.toNat
  if 2047 < n then ({ ch1 with on := false }, w)
  else if w.shift = 0 then (ch1, w)
  else ({ ch1 with freq := BitVec.ofNat 11 n, on := ch1.on && decide (w.calc n ≤ 2047) },
        { w with shadow := BitVec.ofNat 11 n })

/-- `SweepClock` of R505. -/
def sweepClock (ch1 : Pulse) (w : Sweep) : Pulse × Sweep :=
  if w.timer - 1 = 0 then
    if w.enabled && w.period != 0 then sweepStep ch1 { w with timer := w.reload } else (ch1, { w with timer := w.reload })
  else (ch1, { w with timer := w.timer - 1 })

/-- The sweep lines of the trigger of channel 1 (R505), after `Pulse.trigger`. -/
def sweepTrigger (ch1 : Pulse) (w : Sweep) : Pulse × Sweep :=
  let w1 := { w with shadow := ch1.freq, timer := w.reload, enabled := w.period != 0 || w.shift != 0 }
  let n1 := w1.calc ch1.freq.toNat
  let overflow := w.shift != 0 && !w.neg && (decide (2047 < n1) || decide (2047 < w1.calc n1))
  ({ ch1 with on := ch1.on && !overflow }, w1)

/-- Byte `i` of wave RAM. -/
def waveByte (ram : Memory) (i : Nat) : Byte := ram.read i

/-- The period of the wave channel's timer (R507). -/
def wavePeriod (freq : BitVec 11) : Nat := (2048 - freq.toNat) * 2

/-- Sample `pos` of wave RAM: "the high nibble of byte 0 first" (R507). -/
def waveSample (ram : Memory) (pos : Nat) : BitVec 4 :=
  if pos % 2 = 0 then (waveByte ram (pos / 2)).extractLsb' 4 4 else (waveByte ram (pos / 2)).extractLsb' 0 4

/-- `WaveCycle` of R507. -/
def WaveCh.cycle (ram : Memory) (c : WaveCh) : WaveCh :=
  if c.timer - 1 = 0 then
    { c with timer := wavePeriod c.freq, pos := (c.pos + 1) % 32, sample := waveSample ram ((c.pos + 1) % 32) }
  else { c with timer := c.timer - 1 }

/-- `digital(ch3)` of R507. -/
def WaveCh.digital (c : WaveCh) : Nat := if c.waveVol = 0 then 0 else c.sample.toNat / 2 ^ (c.waveVol.toNat - 1)

/-- `LengthClock` of R503 on channel 3. -/
def WaveCh.lengthClock (c : WaveCh) : WaveCh :=
  if c.lenEn && decide (0 < c.len) then { c with len := c.len - 1, on := c.on && c.len - 1 != 0 } else c

/-- The trigger of R507. -/
def WaveCh.trigger (c : WaveCh) : WaveCh :=
  { c with on := c.on || c.dac, len := if c.len = 0 then 256 else c.len, timer := wavePeriod c.freq, pos := 0 }

/-- `NR30` (R507, R511). -/
def WaveCh.writeDac (v : Byte) (c : WaveCh) : WaveCh := { c with dac := bit v 7, on := c.on && bit v 7 }

/-- `NR31` (R507). -/
def WaveCh.writeLength (v : Byte) (c : WaveCh) : WaveCh := { c with len := 256 - v.toNat }

/-- `NR33`. -/
def WaveCh.writeFreqLow (v : Byte) (c : WaveCh) : WaveCh := { c with freq := c.freq.extractLsb' 8 3 ++ v }

/-- `NR34` without the trigger. -/
def WaveCh.writeFreqHigh (v : Byte) (c : WaveCh) : WaveCh :=
  { c with lenEn := bit v 6, freq := v.extractLsb' 0 3 ++ c.freq.extractLsb' 0 8 }

/-- `Divisor` of R508. -/
def noiseDivisor (code : Nat) : Nat := if code = 0 then 8 else 16 * code

/-- `clk_shift`, `NR43[7:4]`. -/
def clkShift (nr43 : Byte) : Nat := nr43.toNat / 16

/-- `NoisePeriod` of R508. -/
def noisePeriod (nr43 : Byte) : Nat := noiseDivisor (nr43.toNat % 8) * 2 ^ clkShift nr43

/-- The shift register after one step (R508). -/
def lfsrStep (nr43 : Byte) (r : BitVec 15) : BitVec 15 :=
  let x := r.getLsbD 0 ^^ r.getLsbD 1
  let shifted := (r >>> 1) ||| (if x then 0x4000 else 0)
  if bit nr43 3 then (shifted &&& 0x7FBF) ||| (if x then 0x0040 else 0) else shifted

/-- `NoiseCycle` of R508. -/
def NoiseCh.cycle (c : NoiseCh) : NoiseCh :=
  if c.timer - 1 = 0 then
    { c with timer := noisePeriod c.nr43, lfsr := if clkShift c.nr43 < 14 then lfsrStep c.nr43 c.lfsr else c.lfsr }
  else { c with timer := c.timer - 1 }

/-- `digital(ch4)` of R508. -/
def NoiseCh.digital (c : NoiseCh) : Nat := if c.lfsr.getLsbD 0 then 0 else c.vol.toNat

/-- `LengthClock` of R503 on channel 4. -/
def NoiseCh.lengthClock (c : NoiseCh) : NoiseCh :=
  if c.lenEn && decide (0 < c.len) then { c with len := c.len - 1, on := c.on && c.len - 1 != 0 } else c

/-- `EnvelopeClock` of R504 on channel 4 after the decrement gave `d`. -/
def NoiseCh.envelopeAfter (d : Nat) (c : NoiseCh) : NoiseCh :=
  if d = 0 then { c with envTimer := envPeriod c.nr42, vol := volStep c.nr42 c.vol } else { c with envTimer := d }

/-- The trigger of R508. -/
def NoiseCh.trigger (c : NoiseCh) : NoiseCh :=
  { c with on := c.on || dacOn c.nr42, len := if c.len = 0 then 64 else c.len, timer := noisePeriod c.nr43,
           vol := c.nr42.extractLsb' 4 4, envTimer := envPeriod c.nr42, lfsr := 0x7FFF }

/-- `NR41` (R508). -/
def NoiseCh.writeLength (v : Byte) (c : NoiseCh) : NoiseCh := { c with len := 64 - v.toNat % 64 }

/-- `NR42` (R508, R511). -/
def NoiseCh.writeEnvelope (v : Byte) (c : NoiseCh) : NoiseCh := { c with nr42 := v, on := c.on && dacOn v }

/-- `env_timer - 1` and the count of free values used (R504, log entry 8). -/
def envDecrement (used t : Nat) : Nat × Nat :=
  if t = 0 then (Config.envTimerBelowZero used, used + 1) else (t - 1, used)

/-- `EnvelopeClock(ch1)` (R504). -/
def Apu.envelope1 (a : Apu) : Apu :=
  if envPeriod a.ch1.nrx2 = 0 then a
  else { a with ch1 := a.ch1.envelopeAfter (envDecrement a.freeUsed a.ch1.envTimer).1,
                freeUsed := (envDecrement a.freeUsed a.ch1.envTimer).2 }

/-- `EnvelopeClock(ch2)` (R504). -/
def Apu.envelope2 (a : Apu) : Apu :=
  if envPeriod a.ch2.nrx2 = 0 then a
  else { a with ch2 := a.ch2.envelopeAfter (envDecrement a.freeUsed a.ch2.envTimer).1,
                freeUsed := (envDecrement a.freeUsed a.ch2.envTimer).2 }

/-- `EnvelopeClock(ch4)` (R504). -/
def Apu.envelope4 (a : Apu) : Apu :=
  if envPeriod a.ch4.nr42 = 0 then a
  else { a with ch4 := a.ch4.envelopeAfter (envDecrement a.freeUsed a.ch4.envTimer).1,
                freeUsed := (envDecrement a.freeUsed a.ch4.envTimer).2 }

/-- The four length clocks (R502, R503). -/
def Apu.lengthClocks (a : Apu) : Apu :=
  { a with ch1 := a.ch1.lengthClock, ch2 := a.ch2.lengthClock, ch3 := a.ch3.lengthClock, ch4 := a.ch4.lengthClock }

/-- `SweepClock()` on the whole generator. -/
def Apu.sweepClock (a : Apu) : Apu :=
  { a with ch1 := (Machine.sweepClock a.ch1 a.sweep).1, sweep := (Machine.sweepClock a.ch1 a.sweep).2 }

/-- What the frame sequencer clocks at position `pos` (R502). -/
def Apu.sequencerAt (pos : Nat) (a : Apu) : Apu :=
  match pos with
  | 0 => a.lengthClocks
  | 2 => a.lengthClocks.sweepClock
  | 4 => a.lengthClocks
  | 6 => a.lengthClocks.sweepClock
  | 7 => a.envelope1.envelope2.envelope4
  | _ => a

/-- `SequencerStep()` of R502. -/
def Apu.sequencerStep (a : Apu) : Apu :=
  { a.sequencerAt a.seqPos with seqPos := (a.seqPos + 1) % 8 }

/-- The frame-sequencer line of R501. -/
def Apu.sequencerCycle (a : Apu) : Apu :=
  if a.seqCounter + 1 = 8192 then Apu.sequencerStep { a with seqCounter := 0 } else { a with seqCounter := a.seqCounter + 1 }

/-- The channel lines of R501. -/
def Apu.channelCycle (a : Apu) : Apu :=
  { a with ch1 := a.ch1.cycle, ch2 := a.ch2.cycle, ch3 := a.ch3.cycle a.waveRam, ch4 := a.ch4.cycle }

/-- One cycle of R501. -/
def Apu.cycle (a : Apu) : Apu := a.sequencerCycle.channelCycle

/-- The repetition of R501. -/
def Apu.cycles : Nat → Apu → Apu
  | 0, a => a
  | n + 1, a => Apu.cycles n a.cycle

/-- `ApuAdvance(m)` (R501). -/
def Apu.advance (m : Nat) (a : Apu) : Apu := if a.power then Apu.cycles m a else a

/-- `out(i)` added on one side (R521). -/
def mixSide (a : Apu) (c1 c2 c3 c4 : Bool) : Nat :=
  (if c1 && a.ch1.on then a.ch1.digital else 0) + (if c2 && a.ch2.on then a.ch2.digital else 0) +
  (if c3 && a.ch3.on then a.ch3.digital else 0) + (if c4 && a.ch4.on then a.ch4.digital else 0)

/-- The pair `(left, right)` of R521 in a state of the generator. -/
def Apu.mix (a : Apu) : Nat × Nat :=
  if a.power then
    (mixSide a (bit a.nr51 4) (bit a.nr51 5) (bit a.nr51 6) (bit a.nr51 7) * (a.nr50.toNat / 16 % 8 + 1),
     mixSide a (bit a.nr51 0) (bit a.nr51 1) (bit a.nr51 2) (bit a.nr51 3) * (a.nr50.toNat % 8 + 1))
  else (0, 0)

/-- The audio output of the cycles of `ApuAdvance(m)`, one pair a cycle (R521, log entry 21). THE MODEL'S CHOICE (log
entry 31): the pair of a cycle is that of the state after the sequencer and the channels have made the cycle. -/
def Apu.output : Nat → Apu → List (Nat × Nat)
  | 0, _ => []
  | n + 1, a => (a.advance 1).mix :: Apu.output n (a.advance 1)

/-- The trigger of channel 1 (R505). -/
def Apu.trigger1 (a : Apu) : Apu :=
  { a with ch1 := (sweepTrigger a.ch1.trigger a.sweep).1, sweep := (sweepTrigger a.ch1.trigger a.sweep).2 }

/-- A write while the power is on (R505 to R508, R520). -/
def Apu.writeOn (r : SoundReg) (v : Byte) (a : Apu) : Apu :=
  match r with
  | .nr10 => { a with sweep := { a.sweep with period := v.extractLsb' 4 3, neg := bit v 3, shift := v.extractLsb' 0 3 } }
  | .nr11 => { a with ch1 := a.ch1.writeDuty v }
  | .nr12 => { a with ch1 := a.ch1.writeEnvelope v }
  | .nr13 => { a with ch1 := a.ch1.writeFreqLow v }
  | .nr14 =>
    let b := { a with ch1 := a.ch1.writeFreqHigh v }
    if bit v 7 then b.trigger1 else b
  | .nr21 => { a with ch2 := a.ch2.writeDuty v }
  | .nr22 => { a with ch2 := a.ch2.writeEnvelope v }
  | .nr23 => { a with ch2 := a.ch2.writeFreqLow v }
  | .nr24 => { a with ch2 := if bit v 7 then (a.ch2.writeFreqHigh v).trigger else a.ch2.writeFreqHigh v }
  | .nr30 => { a with ch3 := a.ch3.writeDac v }
  | .nr31 => { a with ch3 := a.ch3.writeLength v }
  | .nr32 => { a with ch3 := { a.ch3 with waveVol := v.extractLsb' 5 2 } }
  | .nr33 => { a with ch3 := a.ch3.writeFreqLow v }
  | .nr34 => { a with ch3 := if bit v 7 then (a.ch3.writeFreqHigh v).trigger else a.ch3.writeFreqHigh v }
  | .nr41 => { a with ch4 := a.ch4.writeLength v }
  | .nr42 => { a with ch4 := a.ch4.writeEnvelope v }
  | .nr43 => { a with ch4 := { a.ch4 with nr43 := v } }
  | .nr44 =>
    let c := { a.ch4 with lenEn := bit v 6 }
    { a with ch4 := if bit v 7 then c.trigger else c }
  | .nr50 => { a with nr50 := v }
  | .nr51 => { a with nr51 := v }

/-- A write while the power is off in monochrome mode: the length counters load, nothing else happens (R522). -/
def Apu.writeOffMono (r : SoundReg) (v : Byte) (a : Apu) : Apu :=
  match r with
  | .nr11 => { a with ch1 := a.ch1.writeLength v }
  | .nr21 => { a with ch2 := a.ch2.writeLength v }
  | .nr31 => { a with ch3 := a.ch3.writeLength v }
  | .nr41 => { a with ch4 := a.ch4.writeLength v }
  | .nr10 | .nr12 | .nr13 | .nr14 | .nr22 | .nr23 | .nr24 | .nr30 | .nr32 | .nr33 | .nr34 | .nr42 | .nr43 | .nr44
  | .nr50 | .nr51 => a

/-- A write to a register of `0xFF10-0xFF25` (R505 to R508, R520, R522). -/
def Apu.write (color : Bool) (r : SoundReg) (v : Byte) (a : Apu) : Apu :=
  if a.power then a.writeOn r v else if color then a else a.writeOffMono r v

/-- A read of a register of `0xFF10-0xFF25` (R505 to R508, R520). -/
def Apu.read (r : SoundReg) (a : Apu) : Byte :=
  match r with
  | .nr10 => BitVec.ofBool true ++ a.sweep.period ++ BitVec.ofBool a.sweep.neg ++ a.sweep.shift
  | .nr11 => a.ch1.duty ++ 0b111111#6
  | .nr12 => a.ch1.nrx2
  | .nr13 => 0xFF
  | .nr14 => 0xBF ||| bitAt a.ch1.lenEn 6
  | .nr21 => a.ch2.duty ++ 0b111111#6
  | .nr22 => a.ch2.nrx2
  | .nr23 => 0xFF
  | .nr24 => 0xBF ||| bitAt a.ch2.lenEn 6
  | .nr30 => 0x7F ||| bitAt a.ch3.dac 7
  | .nr31 => 0xFF
  | .nr32 => BitVec.ofBool true ++ a.ch3.waveVol ++ 0b11111#5
  | .nr33 => 0xFF
  | .nr34 => 0xBF ||| bitAt a.ch3.lenEn 6
  | .nr41 => 0xFF
  | .nr42 => a.ch4.nr42
  | .nr43 => a.ch4.nr43
  | .nr44 => 0xBF ||| bitAt a.ch4.lenEn 6
  | .nr50 => a.nr50
  | .nr51 => a.nr51

/-- `NR52` read (R522). -/
def Apu.readMaster (a : Apu) : Byte :=
  0x70 ||| bitAt a.power 7 ||| bitAt a.ch4.on 3 ||| bitAt a.ch3.on 2 ||| bitAt a.ch2.on 1 ||| bitAt a.ch1.on 0

/-- A pulse channel at power off; `color` clears the length (R522). -/
def Pulse.powerOff (color : Bool) (p : Pulse) : Pulse :=
  { p with on := false, duty := 0, len := if color then 0 else p.len, lenEn := false, nrx2 := 0, freq := 0, vol := 0 }

/-- Power off (R522). -/
def Apu.powerOff (color : Bool) (a : Apu) : Apu :=
  { a with
    power := false
    ch1 := a.ch1.powerOff color
    sweep := { a.sweep with period := 0, neg := false, shift := 0, shadow := 0, enabled := false }
    ch2 := a.ch2.powerOff color
    ch3 := { a.ch3 with on := false, dac := false, len := if color then 0 else a.ch3.len, lenEn := false, waveVol := 0,
                        freq := 0 }
    ch4 := { a.ch4 with on := false, len := if color then 0 else a.ch4.len, lenEn := false, nr42 := 0, nr43 := 0,
                        vol := 0 }
    nr50 := 0
    nr51 := 0 }

/-- Power on (R522). -/
def Apu.powerOn (a : Apu) : Apu :=
  { a with power := true, seqPos := 0, seqCounter := 0, ch1 := { a.ch1 with dutyPos := 0 },
           ch2 := { a.ch2 with dutyPos := 0 }, ch3 := { a.ch3 with pos := 0, sample := 0 } }

/-- `NR52` written (R522): only `v[7]` counts. -/
def Apu.writeMaster (color : Bool) (v : Byte) (a : Apu) : Apu :=
  match a.power, bit v 7 with
  | true, false => a.powerOff color
  | false, true => a.powerOn
  | _, _ => a

end Sys2Proof.Machine
end

