-- ==== Sys2Proof/Machine/Cartridge.lean ====
section
/-! DEFINITION. The cartridge: header (spec/62_cartridge_mbc_rtc.md R451 to R455), bank controllers (R460 to
R471) and the real-time clock (R476 to R480). -/

namespace Sys2Proof.Machine

/-- What a cartridge type code selects (R453). -/
structure CartType where
  kind : MbcKind
  hasRam : Bool
  hasBattery : Bool
  hasRtc : Bool
  hasRumble : Bool
  deriving DecidableEq, Repr

/-- The table of R453. -/
def cartType (code : Byte) : Option CartType :=
  match code.toNat with
  | 0x00 => some ⟨.none, false, false, false, false⟩
  | 0x01 => some ⟨.mbc1, false, false, false, false⟩
  | 0x02 => some ⟨.mbc1, true, false, false, false⟩
  | 0x03 => some ⟨.mbc1, true, true, false, false⟩
  | 0x05 => some ⟨.mbc2, true, false, false, false⟩
  | 0x06 => some ⟨.mbc2, true, true, false, false⟩
  | 0x08 => some ⟨.none, true, false, false, false⟩
  | 0x09 => some ⟨.none, true, true, false, false⟩
  | 0x0F => some ⟨.mbc3, false, true, true, false⟩
  | 0x10 => some ⟨.mbc3, true, true, true, false⟩
  | 0x11 => some ⟨.mbc3, false, false, false, false⟩
  | 0x12 => some ⟨.mbc3, true, false, false, false⟩
  | 0x13 => some ⟨.mbc3, true, true, false, false⟩
  | 0x19 => some ⟨.mbc5, false, false, false, false⟩
  | 0x1A => some ⟨.mbc5, true, false, false, false⟩
  | 0x1B => some ⟨.mbc5, true, true, false, false⟩
  | 0x1C => some ⟨.mbc5r, false, false, false, true⟩
  | 0x1D => some ⟨.mbc5r, true, false, false, true⟩
  | 0x1E => some ⟨.mbc5r, true, true, false, true⟩
  | _ => none

/-- The ROM-size table R454, in banks of 16 KiB. THE MODEL'S CHOICE (log entry 30): the rows of 72, 80 and 96 banks are
accepted, though D34 speaks of a power of two. -/
def romBanksOf (code : Byte) : Option Nat :=
  match code.toNat with
  | 0x00 => some 2 | 0x01 => some 4 | 0x02 => some 8 | 0x03 => some 16 | 0x04 => some 32 | 0x05 => some 64
  | 0x06 => some 128 | 0x07 => some 256 | 0x08 => some 512 | 0x52 => some 72 | 0x53 => some 80 | 0x54 => some 96
  | _ => none

/-- The RAM-size table R455, in bytes. -/
def ramBytesOf (code : Byte) : Option Nat :=
  match code.toNat with
  | 0x00 => some 0 | 0x01 => some 0x800 | 0x02 => some 0x2000 | 0x03 => some 0x8000 | 0x04 => some 0x20000
  | 0x05 => some 0x10000 | _ => none

/-- `ram_size` (R455, R467): 512 cells for `MBC2`, 0 without RAM, else by the code. -/
def ramSizeOf (t : CartType) (code : Byte) : Option Nat :=
  match t.kind, t.hasRam with
  | .mbc2, _ => some 512
  | _, false => some 0
  | _, true => ramBytesOf code

/-- `COLOR_MODE` from header byte `0x143` (R452). -/
def colorModeOf (b : Byte) : Bool := b == 0x80 || b == 0xC0 || b == 0x32

/-- Why an image is not inserted. -/
inductive Rejection where
  /-- the type code is not in the table of R453 (`UnknownCartridgeType`) -/
  | unknownType (code : Byte)
  /-- the image is not well formed in the sense of R450 in another respect (log entry 18) -/
  | illFormed
  deriving DecidableEq, Repr

/-- The header fields of an image (R450 to R455), or why it is rejected. -/
def Cart.ofImage (image : List Byte) : Except Rejection Cart :=
  let rom := Memory.ofBytes image
  if image.length < 0x150 then .error .illFormed
  else match cartType (rom.read 0x147) with
    | none => .error (.unknownType (rom.read 0x147))
    | some t => match romBanksOf (rom.read 0x148), ramSizeOf t (rom.read 0x149) with
      | some banks, some ram =>
        if image.length = banks * 0x4000 then
          .ok { rom := rom, romLength := image.length, kind := t.kind, hasRam := t.hasRam, hasBattery := t.hasBattery,
                hasRtc := t.hasRtc, hasRumble := t.hasRumble, romBanks := banks, ramSize := ram,
                colorMode := colorModeOf (rom.read 0x143) }
        else .error .illFormed
      | _, _ => .error .illFormed

/-- `rom_index` of a controller (R466 to R470). -/
def Mbc.romIndex (kind : MbcKind) (m : Mbc) : Nat :=
  match kind with
  | .none => 1
  | .mbc1 => if m.bankMode then m.romLo.toNat % 32 else m.hi2.toNat * 32 + m.romLo.toNat % 32
  | .mbc2 => m.romLo.toNat % 16
  | .mbc3 => m.romLo.toNat % 128
  | .mbc5 => m.romHi.toNat * 256 + m.romLo.toNat
  | .mbc5r => m.romHi.toNat * 256 + m.romLo.toNat

/-- `Remap` of R460, R466 to R470. -/
def remap (kind : MbcKind) (i : Nat) : Nat :=
  match kind with
  | .none => 1
  | .mbc1 => if i % 32 = 0 then i + 1 else i
  | .mbc2 => if i = 0 then 1 else i
  | .mbc3 => if i = 0 then 1 else i
  | .mbc5 => i
  | .mbc5r => i

/-- The current ROM bank (R460): the remapping first, the modulus last. -/
def romBank (s : State) : Nat := remap s.cart.kind (s.mbc.romIndex s.cart.kind) % s.cart.romBanks

/-- Byte `off` of the fixed ROM region (R82). -/
def readRomFixed (s : State) (off : Nat) : Byte := s.cart.rom.read off

/-- Byte `off` of the switchable ROM region (R83). -/
def readRomBanked (s : State) (off : Nat) : Byte :=
  s.cart.rom.read ((romBank s * 0x4000 + off) % (s.cart.romBanks * 0x4000))

/-- What the RAM window reaches (R467, R471, R477). -/
inductive Window where
  /-- reads `0xFF`, ignores writes -/
  | sink
  /-- byte `off` of the cartridge RAM -/
  | ram (off : Nat)
  /-- 4-bit cell `off` of `MBC2` -/
  | cell (off : Nat)
  | seconds
  | minutes
  | hours
  | dayLow
  | dayHigh
  deriving DecidableEq, Repr

/-- RAM bank `ramBank` seen at `off` (the last case of R471). -/
def ramWindow (s : State) (ramBank off : Nat) : Window :=
  if s.cart.ramSize = 0 then .sink else .ram ((ramBank * 0x2000 + off) % s.cart.ramSize)

/-- The clock register a selector `0x8..0xC` reaches (R477). -/
def clockWindow (select : BitVec 4) : Window :=
  match select.toNat with
  | 0x8 => .seconds | 0x9 => .minutes | 0xA => .hours | 0xB => .dayLow | 0xC => .dayHigh | _ => .sink

/-- What `MBC3` reaches, RAM enabled (R464, R468, R471, R477). -/
def mbc3Window (s : State) (off : Nat) : Window :=
  if s.mbc.ramSelect.toNat ≤ 3 then ramWindow s s.mbc.ramSelect.toNat off
  else if s.cart.hasRtc then clockWindow s.mbc.ramSelect
  else .sink

/-- What offset `off` of the window `0xA000-0xBFFF` reaches (R467, R471, R477). -/
def window (s : State) (off : Nat) : Window :=
  match s.cart.kind with
  | .none => ramWindow s 0 off
  | .mbc1 => if s.mbc.ramEnabled then ramWindow s (if s.mbc.bankMode then s.mbc.hi2.toNat else 0) off else .sink
  | .mbc2 => if s.mbc.ramEnabled then .cell (off % 512) else .sink
  | .mbc3 => if s.mbc.ramEnabled then mbc3Window s off else .sink
  | .mbc5 => if s.mbc.ramEnabled then ramWindow s s.mbc.ramSelect.toNat off else .sink
  | .mbc5r => if s.mbc.ramEnabled then ramWindow s (s.mbc.ramSelect.toNat % 8) off else .sink

/-- The day-high byte of R477: `carry ++ halt ++ 0b00000 ++ day[8]`. -/
def RtcRegs.dayHigh (r : RtcRegs) : Byte := bitAt r.carry 7 ||| bitAt r.halt 6 ||| bitAt (r.day.getLsbD 8) 0

/-- A read through the RAM window. -/
def readWindow (s : State) (off : Nat) : Byte :=
  match window s off with
  | .sink => 0xFF
  | .ram o => s.cram.read o
  | .cell o => 0xF0 ||| (s.cram.read o &&& 0x0F)
  | .seconds => BitVec.ofNat 8 s.rtc.latched.sec
  | .minutes => BitVec.ofNat 8 s.rtc.latched.min
  | .hours => BitVec.ofNat 8 s.rtc.latched.hour
  | .dayLow => s.rtc.latched.day.extractLsb' 0 8
  | .dayHigh => s.rtc.latched.dayHigh

/-- The live clock registers replaced. -/
def setLive (r : RtcRegs) (s : State) : State := { s with rtc := { s.rtc with live := r } }

/-- A write through the RAM window: RAM, or a live clock register (R477: out of range is discarded). -/
def writeWindow (s : State) (off : Nat) (v : Byte) : State :=
  match window s off with
  | .sink => s
  | .ram o => { s with cram := s.cram.write o v }
  | .cell o => { s with cram := s.cram.write o (v &&& 0x0F) }
  | .seconds => if v.toNat < 60 then setLive { s.rtc.live with sec := v.toNat } s else s
  | .minutes => if v.toNat < 60 then setLive { s.rtc.live with min := v.toNat } s else s
  | .hours => if v.toNat < 24 then setLive { s.rtc.live with hour := v.toNat } s else s
  | .dayLow => setLive { s.rtc.live with day := (s.rtc.live.day &&& 0x100) ||| v.setWidth 9 } s
  | .dayHigh => setLive { s.rtc.live with day := (s.rtc.live.day &&& 0xFF) ||| (if bit v 0 then 0x100 else 0),
                                          halt := bit v 6, carry := bit v 7 } s

/-- The latch of R478. -/
def latchClock (r : Rtc) : Rtc := { r with latched := r.live }

/-- A write to the latch-control range (R465, R478). -/
def writeLatch (v : Byte) (r : Rtc) : Rtc :=
  { (if r.latchPrev = 0x00 ∧ v = 0x01 then latchClock r else r) with latchPrev := v }

/-- R462. -/
def writeRamEnable (kind : MbcKind) (v : Byte) (m : Mbc) : Mbc :=
  match kind with
  | .none => m
  | .mbc1 => { m with ramEnabled := v &&& 0x0F == 0x0A }
  | .mbc2 => { m with ramEnabled := v &&& 0x0F == 0x0A }
  | .mbc3 => { m with ramEnabled := v &&& 0x0F == 0x0A }
  | .mbc5 => { m with ramEnabled := v &&& 0x0F == 0x0A }
  | .mbc5r => { m with ramEnabled := v &&& 0x0F == 0x0A }

/-- R463; `upper` says that the address is in `0x3000-0x3FFF`. -/
def writeRomSelect (kind : MbcKind) (upper : Bool) (v : Byte) (m : Mbc) : Mbc :=
  match kind, upper with
  | .none, _ => m
  | .mbc1, _ => { m with romLo := v &&& 0x1F }
  | .mbc2, _ => { m with romLo := v &&& 0x0F }
  | .mbc3, _ => { m with romLo := v &&& 0x7F }
  | .mbc5, false => { m with romLo := v }
  | .mbc5, true => { m with romHi := bit v 0 }
  | .mbc5r, false => { m with romLo := v }
  | .mbc5r, true => { m with romHi := bit v 0 }

/-- R464. -/
def writeRamSelect (kind : MbcKind) (v : Byte) (m : Mbc) : Mbc :=
  match kind with
  | .none => m
  | .mbc1 => { m with hi2 := v.extractLsb' 0 2 }
  | .mbc2 => m
  | .mbc3 => { m with ramSelect := v.extractLsb' 0 4 }
  | .mbc5 => { m with ramSelect := v.extractLsb' 0 4 }
  | .mbc5r => { m with ramSelect := (v &&& 0x07).extractLsb' 0 4, rumble := bit v 3 }

/-- R465, the bank-mode half. -/
def writeBankMode (kind : MbcKind) (v : Byte) (m : Mbc) : Mbc :=
  match kind with
  | .none => m
  | .mbc1 => { m with bankMode := bit v 0 }
  | .mbc2 => m
  | .mbc3 => m
  | .mbc5 => m
  | .mbc5r => m

/-- A write of `v` at `a < 0x8000` (R84, R462 to R465). -/
def writeController (s : State) (a : Nat) (v : Byte) : State :=
  if a < 0x2000 then { s with mbc := writeRamEnable s.cart.kind v s.mbc }
  else if a < 0x4000 then { s with mbc := writeRomSelect s.cart.kind (decide (0x3000 ≤ a)) v s.mbc }
  else if a < 0x6000 then { s with mbc := writeRamSelect s.cart.kind v s.mbc }
  else if s.cart.kind = .mbc3 ∧ s.cart.hasRtc = true then { s with rtc := writeLatch v s.rtc }
  else { s with mbc := writeBankMode s.cart.kind v s.mbc }

/-- The day step of `RtcSecond` (R480). -/
def RtcRegs.nextDay (r : RtcRegs) : RtcRegs :=
  if r.day = 511 then { r with day := 0, carry := true } else { r with day := r.day + 1 }

/-- The hour step of `RtcSecond`. -/
def RtcRegs.nextHour (r : RtcRegs) : RtcRegs :=
  if r.hour + 1 = 24 then RtcRegs.nextDay { r with hour := 0 } else { r with hour := r.hour + 1 }

/-- The minute step of `RtcSecond`. -/
def RtcRegs.nextMinute (r : RtcRegs) : RtcRegs :=
  if r.min + 1 = 60 then RtcRegs.nextHour { r with min := 0 } else { r with min := r.min + 1 }

/-- `RtcSecond()` of R480. -/
def RtcRegs.nextSecond (r : RtcRegs) : RtcRegs :=
  if r.sec + 1 = 60 then RtcRegs.nextMinute { r with sec := 0 } else { r with sec := r.sec + 1 }

/-- `RtcSecond` repeated. -/
def RtcRegs.seconds : Nat → RtcRegs → RtcRegs
  | 0, r => r
  | n + 1, r => RtcRegs.seconds n r.nextSecond

/-- The advance at the start of a slice at wall-clock time `now` (R480). -/
def Rtc.resume (now : Nat) (r : Rtc) : Rtc :=
  { r with live := if r.live.halt then r.live else RtcRegs.seconds (now - r.lastWall) r.live, lastWall := now }

end Sys2Proof.Machine
end

