-- ==== Sys2Proof/Machine/Interrupts.lean ====
section
/-! DEFINITION. Interrupt requests (spec/60_exceptions.md R345, R346, R347) and the joypad lines (R380), which
make one. Taking an interrupt is in Ops.lean. -/

namespace Sys2Proof.Machine

/-- The five sources in priority order (R346): 0 VBlank, 1 STAT, 2 Timer, 3 Serial, 4 Joypad. -/
inductive Source where
  | vblank | stat | timer | serial | joypad
  deriving DecidableEq, Repr

/-- The number `n` of a source (R346). -/
def Source.number : Source → Nat
  | .vblank => 0 | .stat => 1 | .timer => 2 | .serial => 3 | .joypad => 4

/-- The mask of a source in `IF` and `IE` (R34). -/
def Source.mask : Source → BitVec 5
  | .vblank => 0b00001 | .stat => 0b00010 | .timer => 0b00100 | .serial => 0b01000 | .joypad => 0b10000

/-- The fixed vector of a source (R348), `0x0040 + 8*n`. -/
def Source.vector : Source → Word
  | .vblank => 0x0040 | .stat => 0x0048 | .timer => 0x0050 | .serial => 0x0058 | .joypad => 0x0060

/-- `Request(n)`: `IF[n] <- 1`, nothing else (R345). -/
def request (n : Source) (s : State) : State := { s with ifReg := s.ifReg ||| n.mask }

/-- A request made only if a condition holds. -/
def requestIf (c : Bool) (n : Source) (s : State) : State := if c then request n s else s

/-- `IE & IF & 0x1F` (R347). -/
def pending (s : State) : BitVec 5 := s.ieReg.extractLsb' 0 5 &&& s.ifReg

/-- The least source whose bit is set in `pend` (R347: "dispatch the lowest-set bit"). -/
def firstPending (pend : BitVec 5) : Option Source :=
  if pend.getLsbD 0 then some .vblank
  else if pend.getLsbD 1 then some .stat
  else if pend.getLsbD 2 then some .timer
  else if pend.getLsbD 3 then some .serial
  else if pend.getLsbD 4 then some .joypad
  else none

/-- Line `k` of the joypad is low, that is pressed (R380). -/
def Joypad.low (j : Joypad) (k : Nat) : Bool :=
  (!j.p14 && j.buttons.getLsbD k) || (!j.p15 && j.buttons.getLsbD (4 + k))

/-- `line[3..0]` of R380: a bit is 0 when its line is low. -/
def Joypad.lines (j : Joypad) : BitVec 4 :=
  (if j.low 3 then 0#4 else 8#4) ||| (if j.low 2 then 0#4 else 4#4) ||| (if j.low 1 then 0#4 else 2#4) |||
    (if j.low 0 then 0#4 else 1#4)

/-- Some line that was 1 is 0 (R380). -/
def Joypad.fell (before after : Joypad) : Bool := before.lines &&& ~~~after.lines != 0

/-- Replace the joypad state and make `Request(4)` if a line went from 1 to 0 (R380). -/
def setJoypad (j : Joypad) (s : State) : State :=
  requestIf (Joypad.fell s.joypad j) .joypad { s with joypad := j }

end Sys2Proof.Machine
end

