-- ==== Sys2Proof/Machine/Ppu.lean ====
section
/-! DEFINITION. The picture generator: the compositor (spec/61_ppu.md R420 to R432), the registers' effects
(R407 to R412, R428, R429) and the entries to modes 1, 2 and 3 (R403 to R405). The cycle loop R402 and the entry
to mode 0, which can copy an HDMA block, are in Tick.lean. -/

namespace Sys2Proof.Machine

/-- `mode` as a number (R401). -/
def PpuMode.number : PpuMode → BitVec 2
  | .hblank => 0 | .vblank => 1 | .oamScan => 2 | .transfer => 3

/-- Replace the picture generator. -/
def setPpu (p : Ppu) (s : State) : State := { s with ppu := p }

/-- `LCDC[i]` (R410). -/
def lcdcBit (s : State) (i : Nat) : Bool := bit s.ppu.lcdc i

/-- The fill pixel of R432. -/
def fillPixel (color : Bool) : Pixel := if color then .rgb 0x7FFF else .shade 0

/-- Byte `off` of video-RAM bank `bank`; below the start it is the free value of log entry 9. -/
def vramAt (s : State) (bank : Nat) (off : Int) : Byte :=
  if 0 ≤ off then s.vram.read (0x2000 * bank + off.toNat) else Config.vramBelow bank off

/-- `TilePixel` of R424. -/
def tilePixel (s : State) (bank : Nat) (addr r : Int) (c : Nat) : BitVec 2 :=
  let lo := vramAt s bank (addr + 2 * r)
  let hi := vramAt s bank (addr + 2 * r + 1)
  BitVec.ofBool (bit hi (7 - c)) ++ BitVec.ofBool (bit lo (7 - c))

/-- `TileAddr` of R424. -/
def tileAddr (s : State) (t : Byte) : Int :=
  if lcdcBit s 4 then (t.toNat : Int) * 16 else 0x1000 + t.toInt * 16

/-- `pal[2*ci+1 : 2*ci]` of R428. -/
def shadeOf (pal : Byte) (ci : BitVec 2) : Pixel := .shade (pal.extractLsb' (2 * ci.toNat) 2)

/-- A color of palette memory, low byte first, modulo `2^15` (R429). -/
def colorOf (mem : Memory) (pal : Nat) (ci : BitVec 2) : Pixel :=
  .rgb ((word (mem.read (8 * pal + 2 * ci.toNat + 1)) (mem.read (8 * pal + 2 * ci.toNat))).setWidth 15)

/-- `BgColor` of R428, R429. -/
def bgColor (s : State) (pal : Nat) (ci : BitVec 2) : Pixel :=
  if s.cart.colorMode then colorOf s.ppu.bgPal pal ci else shadeOf s.ppu.bgp ci

/-- `ObjColor` of R428, R429. -/
def objColor (s : State) (flags : Byte) (ci : BitVec 2) : Pixel :=
  if s.cart.colorMode then colorOf s.ppu.objPal (flags.toNat % 8) ci
  else shadeOf (if bit flags 4 then s.ppu.obp1 else s.ppu.obp0) ci

/-- `MapPixel` of R422, with the attributes of R430. -/
def mapPixel (s : State) (mapsel : Bool) (px py : Nat) : LinePixel :=
  let off := (if mapsel then 0x1C00 else 0x1800) + py / 8 * 32 + px / 8
  let t := s.vram.read off
  let attr := if s.cart.colorMode then s.vram.read (0x2000 + off) else 0x00
  let r := if bit attr 6 then 7 - py % 8 else py % 8
  let c := if bit attr 5 then 7 - px % 8 else px % 8
  let ci := tilePixel s (bit attr 3).toNat (tileAddr s t) r c
  { ci := ci, prio := bit attr 7, pixel := bgColor s (attr.toNat % 8) ci }

/-- `BgPixel` of R422. -/
def bgPixel (s : State) (x line : Nat) : LinePixel :=
  mapPixel s (lcdcBit s 3) ((x + s.ppu.scx.toNat) % 256) ((line + s.ppu.scy.toNat) % 256)

/-- The window covers `(x, line)` (R423). -/
def inWindow (s : State) (x line : Nat) : Bool :=
  lcdcBit s 5 && decide (s.ppu.wy.toNat ≤ line) && decide (s.ppu.wx.toNat ≤ x + 7) && decide (s.ppu.wx.toNat ≤ 166)

/-- `BgWinPixel` of R423. -/
def bgWinPixel (s : State) (x line : Nat) : LinePixel :=
  if !s.cart.colorMode && !lcdcBit s 0 then { ci := 0, prio := false, pixel := fillPixel false }
  else if inWindow s x line then mapPixel s (lcdcBit s 6) (x + 7 - s.ppu.wx.toNat) (line - s.ppu.wy.toNat)
  else bgPixel s x line

/-- A list with each entry replaced by a function of its index, counted from `i`, and itself. -/
def mapFrom (f : Nat → LinePixel → LinePixel) : Nat → List LinePixel → List LinePixel
  | _, [] => []
  | i, e :: es => f i e :: mapFrom f (i + 1) es

/-- `P(c)` of R420. -/
def pixelsOutput (c : Nat) : Nat := min 160 (c - 92)

/-- `RenderUpTo(p)` of R420. -/
def renderUpTo (p : Nat) (s : State) : State :=
  if lcdcBit s 7 && decide (s.ppu.line < 144) && s.ppu.mode == .transfer then
    setPpu { s.ppu with
      lineBuf := mapFrom (fun x e => if s.ppu.renderedX ≤ x ∧ x < p then bgWinPixel s x s.ppu.line else e) 0 s.ppu.lineBuf
      renderedX := max s.ppu.renderedX p } s
  else s

/-- `RenderUpTo(P(line_cycle))`, what a register write does first (R420). -/
def renderSoFar (s : State) : State := renderUpTo (pixelsOutput s.ppu.lineCycle) s

/-- The height of sprites (R410 bit 2). -/
def spriteHeight (s : State) : Nat := if lcdcBit s 2 then 16 else 8

/-- Byte `k` of OAM entry `i` (R427). -/
def oamByte (s : State) (i k : Nat) : Byte := s.oam.read (4 * i + k)

/-- Sprite `i` lies on the current line (R425). -/
def onLine (s : State) (i : Nat) : Bool :=
  decide ((oamByte s i 0).toNat ≤ s.ppu.line + 16) && decide (s.ppu.line + 16 < (oamByte s i 0).toNat + spriteHeight s)

/-- The OAM pre-scan of R425. -/
def oamScan (s : State) : List Nat := ((List.range 40).filter (onLine s)).take 10

/-- `M3_EXTRA(n)` (R405). -/
def m3Extra (s : State) (n : Nat) : Nat :=
  match s.params.m3Extra with
  | .standard => if s.cart.colorMode && lcdcBit s 1 then 6 * min n 10 else 0
  | .table costs => costs.getD n 0

/-- Sprite `i` reaches column `x` (R426). -/
def spriteCovers (s : State) (i x : Nat) : Bool :=
  decide ((oamByte s i 1).toNat ≤ x + 8) && decide (x + 8 < (oamByte s i 1).toNat + 8)

/-- `SpritePix(i, x)` of R426, for a column the sprite covers. -/
def spritePix (s : State) (i x : Nat) : BitVec 2 :=
  let h := spriteHeight s
  let flags := oamByte s i 3
  let r0 : Int := (s.ppu.line : Int) + 16 - (oamByte s i 0).toNat
  let r1 : Int := if bit flags 6 then (h : Int) - 1 - r0 else r0
  let c0 := x + 8 - (oamByte s i 1).toNat
  let c := if bit flags 5 then 7 - c0 else c0
  let t0 := if h = 16 then oamByte s i 2 &&& 0xFE else oamByte s i 2
  let t := if 8 ≤ r1 then t0 ||| 1 else t0
  let r := if 8 ≤ r1 then r1 - 8 else r1
  let bank := if s.cart.colorMode then (bit flags 3).toNat else 0
  tilePixel s bank ((t.toNat : Int) * 16) r c

/-- The candidates of R426 at column `x`. -/
def candidates (s : State) (x : Nat) : List Nat :=
  s.ppu.spriteList.filter fun i => spriteCovers s i x && spritePix s i x != 0

/-- The order of R426: sprite `i` wins over sprite `j`. -/
def spriteBefore (s : State) (i j : Nat) : Bool :=
  if s.cart.colorMode then decide (i < j)
  else decide ((oamByte s i 1).toNat < (oamByte s j 1).toNat) ||
    (oamByte s i 1 == oamByte s j 1 && decide (i < j))

/-- The least of a list of sprites in that order. -/
def winner (s : State) : List Nat → Option Nat
  | [] => none
  | i :: is => some (is.foldl (fun w j => if spriteBefore s j w then j else w) i)

/-- The winning sprite is hidden behind the background entry (R426). -/
def behindBackground (s : State) (e : LinePixel) (flags : Byte) : Bool :=
  if s.cart.colorMode then lcdcBit s 0 && e.ci != 0 && (e.prio || bit flags 7) else e.ci != 0 && bit flags 7

/-- One column of sprite compositing (R426). -/
def spriteOver (s : State) (x : Nat) (e : LinePixel) : LinePixel :=
  match winner s (candidates s x) with
  | none => e
  | some w =>
    if behindBackground s e (oamByte s w 3) then e
    else { e with pixel := objColor s (oamByte s w 3) (spritePix s w x) }

/-- Sprite compositing over the whole line (R426). -/
def compositeSprites (s : State) : State :=
  if lcdcBit s 1 then setPpu { s.ppu with lineBuf := mapFrom (spriteOver s) 0 s.ppu.lineBuf } s else s

/-- Copy `line_buf` into `frame[line]` (R406, R431). -/
def copyLine (s : State) : State :=
  setPpu { s.ppu with frame := s.ppu.frame.set s.ppu.line (s.ppu.lineBuf.map LinePixel.pixel) } s

/-- "finish the line" of R406. -/
def finishLine (s : State) : State := copyLine (compositeSprites (renderUpTo 160 s))

/-- `STAT[i]` for an enable bit `i` in 3..6 (R411). -/
def statEnable (s : State) (i : Nat) : Bool := s.ppu.statEn.getLsbD (i - 3)

/-- `Compare()` of R407. -/
def compareLy (s : State) : State := requestIf (s.ppu.ly == s.ppu.lyc && statEnable s 6) .stat s

/-- Enter mode 2 (R403). -/
def enterMode2 (s : State) : State :=
  requestIf (statEnable s 5) .stat (setPpu { s.ppu with mode := .oamScan, renderedX := 0 } s)

/-- Enter mode 1 (R404). -/
def enterMode1 (s : State) : State :=
  requestIf (statEnable s 4) .stat (request .vblank
    (setPpu { s.ppu with mode := .vblank, frames := s.ppu.frames ++ [s.ppu.frame] } s))

/-- Enter mode 3 (R405). -/
def enterMode3 (s : State) : State :=
  setPpu { s.ppu with mode := .transfer, spriteList := oamScan s,
                      mode3Len := 172 + m3Extra s (oamScan s).length } s

/-- The display is switched off (R412). -/
def displayOff (s : State) : State :=
  setPpu { s.ppu with line := 0, ly := 0, lineCycle := 0, mode := .hblank, renderedX := 0,
                      frame := s.ppu.frame.map fun row => row.map fun _ => fillPixel s.cart.colorMode } s

/-- The display is switched on (R412). -/
def displayOn (s : State) : State :=
  compareLy (enterMode2 (setPpu { s.ppu with line := 0, ly := 0, lineCycle := 0 } s))

/-- Write `LCDC` (R410, R412). -/
def writeLcdc (v : Byte) (s : State) : State :=
  let s1 := renderSoFar s
  let s2 := setPpu { s1.ppu with lcdc := v } s1
  match bit s1.ppu.lcdc 7, bit v 7 with
  | true, false => displayOff s2
  | false, true => displayOn s2
  | _, _ => s2

/-- Read `STAT` (R411). -/
def readStat (s : State) : Byte :=
  BitVec.ofBool true ++ s.ppu.statEn ++ BitVec.ofBool (s.ppu.ly == s.ppu.lyc) ++ s.ppu.mode.number

/-- Write `STAT` (R411): the enables and nothing else. -/
def writeStat (v : Byte) (s : State) : State := setPpu { s.ppu with statEn := v.extractLsb' 3 4 } s

/-- Write `LYC` (R407). -/
def writeLyc (v : Byte) (s : State) : State :=
  let s1 := setPpu { s.ppu with lyc := v } s
  if lcdcBit s 7 then compareLy s1 else s1

/-- Write `BCPD` (R429, R420). -/
def writeBgPalette (v : Byte) (s : State) : State :=
  let s1 := renderSoFar s
  setPpu { s1.ppu with bgPal := s1.ppu.bgPal.write s1.ppu.bcpsIdx.toNat v,
                       bcpsIdx := if s1.ppu.bcpsInc then s1.ppu.bcpsIdx + 1 else s1.ppu.bcpsIdx } s1

/-- Write `OCPD` (R429). -/
def writeObjPalette (v : Byte) (s : State) : State :=
  setPpu { s.ppu with objPal := s.ppu.objPal.write s.ppu.ocpsIdx.toNat v,
                      ocpsIdx := if s.ppu.ocpsInc then s.ppu.ocpsIdx + 1 else s.ppu.ocpsIdx } s

end Sys2Proof.Machine
end

