-- ==== Sys2Proof/Machine/Io.lean ====
section
/-! DEFINITION. The I/O registers: which addresses of `0xFF00-0xFF7F` have one (spec/20_memory.md R92), what a
read returns, and the writes whose whole effect lies in the state of one device. -/

namespace Sys2Proof.Machine

/-- The rows of R92. -/
inductive IoReg where
  | p1 | sb | sc | div | tima | tma | tac | irq
  | sound (r : SoundReg) | nr52 | wave (i : BitVec 4)
  | lcdc | stat | scy | scx | ly | lyc | dma | bgp | obp0 | obp1 | wy | wx
  | key1 | vbk | hdma1 | hdma2 | hdma3 | hdma4 | hdma5 | bcps | bcpd | ocps | ocpd | svbk
  deriving DecidableEq, Repr

/-- The register at `0xFF00 + n` (R92). -/
def ioRegAt (n : Nat) : Option IoReg :=
  if 0x30 ≤ n ∧ n < 0x40 then some (.wave (BitVec.ofNat 4 n)) else
  match n with
  | 0x00 => some .p1 | 0x01 => some .sb | 0x02 => some .sc | 0x04 => some .div
  | 0x05 => some .tima | 0x06 => some .tma | 0x07 => some .tac | 0x0F => some .irq
  | 0x10 => some (.sound .nr10) | 0x11 => some (.sound .nr11) | 0x12 => some (.sound .nr12)
  | 0x13 => some (.sound .nr13) | 0x14 => some (.sound .nr14)
  | 0x16 => some (.sound .nr21) | 0x17 => some (.sound .nr22) | 0x18 => some (.sound .nr23)
  | 0x19 => some (.sound .nr24)
  | 0x1A => some (.sound .nr30) | 0x1B => some (.sound .nr31) | 0x1C => some (.sound .nr32)
  | 0x1D => some (.sound .nr33) | 0x1E => some (.sound .nr34)
  | 0x20 => some (.sound .nr41) | 0x21 => some (.sound .nr42) | 0x22 => some (.sound .nr43)
  | 0x23 => some (.sound .nr44)
  | 0x24 => some (.sound .nr50) | 0x25 => some (.sound .nr51) | 0x26 => some .nr52
  | 0x40 => some .lcdc | 0x41 => some .stat | 0x42 => some .scy | 0x43 => some .scx
  | 0x44 => some .ly | 0x45 => some .lyc | 0x46 => some .dma | 0x47 => some .bgp
  | 0x48 => some .obp0 | 0x49 => some .obp1 | 0x4A => some .wy | 0x4B => some .wx
  | 0x4D => some .key1 | 0x4F => some .vbk | 0x51 => some .hdma1 | 0x52 => some .hdma2
  | 0x53 => some .hdma3 | 0x54 => some .hdma4 | 0x55 => some .hdma5
  | 0x68 => some .bcps | 0x69 => some .bcpd | 0x6A => some .ocps | 0x6B => some .ocpd
  | 0x70 => some .svbk
  | _ => none

/-- The rows marked CGB in R92. -/
def IoReg.colorOnly : IoReg → Bool
  | .key1 | .vbk | .hdma1 | .hdma2 | .hdma3 | .hdma4 | .hdma5 | .bcps | .bcpd | .ocps | .ocpd | .svbk => true
  | .p1 | .sb | .sc | .div | .tima | .tma | .tac | .irq | .sound _ | .nr52 | .wave _ | .lcdc | .stat | .scy | .scx
  | .ly | .lyc | .dma | .bgp | .obp0 | .obp1 | .wy | .wx => false

/-- The register at `0xFF00 + n` of this machine: `none` where nothing is mapped (R92, R95). -/
def ioReg (color : Bool) (n : Nat) : Option IoReg := (ioRegAt n).filter fun r => color || !r.colorOnly

/-- `wbank` (R96, log entry 14). -/
def wbank (s : State) : Nat := if s.cart.colorMode then max 1 s.bus.svbk.toNat else 1

/-- `DIV` (R36). -/
def readDiv (s : State) : Byte := s.timer.divCounter.extractLsb' 8 8

/-- `SC` read (R375). -/
def readSc (s : State) : Byte :=
  bitAt s.serial.scStart 7 ||| 0x7C ||| bitAt (!s.cart.colorMode || s.serial.scFast) 1 ||| bitAt s.serial.scInternal 0

/-- `HDMA5` read (R99, log entry 12). -/
def readHdma5 (s : State) : Byte :=
  if s.bus.hdmaActive then BitVec.ofBool false ++ s.bus.hdmaLen else s.bus.hdma5Idle

/-- What a read of an I/O register returns (R92 and the rules it cites). -/
def readIo (r : IoReg) (s : State) : Byte :=
  match r with
  | .p1 => 0b11#2 ++ BitVec.ofBool s.joypad.p15 ++ BitVec.ofBool s.joypad.p14 ++ s.joypad.lines
  | .sb => s.serial.sb
  | .sc => readSc s
  | .div => readDiv s
  | .tima => s.timer.tima
  | .tma => s.timer.tma
  | .tac => 0b11111#5 ++ s.timer.tac
  | .irq => 0b111#3 ++ s.ifReg
  | .sound r => s.apu.read r
  | .nr52 => s.apu.readMaster
  | .wave i => waveByte s.apu.waveRam i.toNat
  | .lcdc => s.ppu.lcdc
  | .stat => readStat s
  | .scy => s.ppu.scy
  | .scx => s.ppu.scx
  | .ly => s.ppu.ly
  | .lyc => s.ppu.lyc
  | .dma => s.bus.dma
  | .bgp => s.ppu.bgp
  | .obp0 => s.ppu.obp0
  | .obp1 => s.ppu.obp1
  | .wy => s.ppu.wy
  | .wx => s.ppu.wx
  | .key1 => BitVec.ofBool s.cpu.speedShift ++ 0b111111#6 ++ BitVec.ofBool s.key1Armed
  | .vbk => 0b1111111#7 ++ BitVec.ofBool s.bus.vbank
  | .hdma1 => 0xFF
  | .hdma2 => 0xFF
  | .hdma3 => 0xFF
  | .hdma4 => 0xFF
  | .hdma5 => readHdma5 s
  | .bcps => BitVec.ofBool s.ppu.bcpsInc ++ 1#1 ++ s.ppu.bcpsIdx
  | .bcpd => s.ppu.bgPal.read s.ppu.bcpsIdx.toNat
  | .ocps => BitVec.ofBool s.ppu.ocpsInc ++ 1#1 ++ s.ppu.ocpsIdx
  | .ocpd => s.ppu.objPal.read s.ppu.ocpsIdx.toNat
  | .svbk => 0b11111#5 ++ s.bus.svbk

/-- Write `P1` (R380). -/
def writeP1 (v : Byte) (s : State) : State := setJoypad { s.joypad with p15 := bit v 5, p14 := bit v 4 } s

/-- Write `SC` (R375). -/
def writeSc (v : Byte) (s : State) : State :=
  let fast := if s.cart.colorMode then bit v 1 else s.serial.scFast
  let period := if s.cart.colorMode && bit v 1 then 16 else 512
  if bit v 7 && bit v 0 then
    { s with serial := { s.serial with scStart := true, scFast := fast, scInternal := bit v 0, period := period,
                                       timer := 8 * period } }
  else
    { s with serial := { s.serial with scStart := bit v 7, scFast := fast, scInternal := bit v 0, timer := 0 } }

/-- Write `DIV`: the high byte is cleared, the low byte kept (R36, R372). -/
def writeDiv (s : State) : State := { s with timer := { s.timer with divCounter := s.timer.divCounter &&& 0x00FF } }

/-- The sound generator changed. -/
def setApu (a : Apu) (s : State) : State := { s with apu := a }

/-- Write `HDMA1` to `HDMA4` (R99). -/
def writeHdmaAddress (r : IoReg) (v : Byte) (s : State) : State :=
  match r with
  | .hdma1 => { s with bus := { s.bus with hdmaSrc := word v (loByte s.bus.hdmaSrc) } }
  | .hdma2 => { s with bus := { s.bus with hdmaSrc := word (hiByte s.bus.hdmaSrc) (v &&& 0xF0) } }
  | .hdma3 => { s with bus := { s.bus with hdmaDst := v.extractLsb' 0 5 ++ s.bus.hdmaDst.extractLsb' 0 8 } }
  | .hdma4 => { s with bus := { s.bus with hdmaDst := s.bus.hdmaDst.extractLsb' 8 5 ++ (v &&& 0xF0) } }
  | _ => s

/-- The write of an I/O register, for the registers other than `DMA` and `HDMA5` (which copy memory and are in
Bus.lean); R92 and the rules it cites. A register that forces a partial render does so before the store (R420;
for `OBP0` and `OBP1` by R92, log entry 13). -/
def writeIoPlain (r : IoReg) (v : Byte) (s : State) : State :=
  match r with
  | .p1 => writeP1 v s
  | .sb => { s with serial := { s.serial with sb := v } }
  | .sc => writeSc v s
  | .div => writeDiv s
  | .tima => { s with timer := { s.timer with tima := v } }
  | .tma => { s with timer := { s.timer with tma := v } }
  | .tac => { s with timer := { s.timer with tac := v.extractLsb' 0 3 } }
  | .irq => { s with ifReg := v.extractLsb' 0 5 }
  | .sound r => setApu (s.apu.write s.cart.colorMode r v) s
  | .nr52 => setApu (s.apu.writeMaster s.cart.colorMode v) s
  | .wave i => setApu { s.apu with waveRam := s.apu.waveRam.write i.toNat v } s
  | .lcdc => writeLcdc v s
  | .stat => writeStat v s
  | .scy => setPpu { (renderSoFar s).ppu with scy := v } (renderSoFar s)
  | .scx => setPpu { (renderSoFar s).ppu with scx := v } (renderSoFar s)
  | .ly => s
  | .lyc => writeLyc v s
  | .dma => s
  | .bgp => setPpu { (renderSoFar s).ppu with bgp := v } (renderSoFar s)
  | .obp0 => setPpu { (renderSoFar s).ppu with obp0 := v } (renderSoFar s)
  | .obp1 => setPpu { (renderSoFar s).ppu with obp1 := v } (renderSoFar s)
  | .wy => setPpu { (renderSoFar s).ppu with wy := v } (renderSoFar s)
  | .wx => setPpu { (renderSoFar s).ppu with wx := v } (renderSoFar s)
  | .key1 => { s with key1Armed := bit v 0 }
  | .vbk => { s with bus := { s.bus with vbank := bit v 0 } }
  | .hdma1 => writeHdmaAddress .hdma1 v s
  | .hdma2 => writeHdmaAddress .hdma2 v s
  | .hdma3 => writeHdmaAddress .hdma3 v s
  | .hdma4 => writeHdmaAddress .hdma4 v s
  | .hdma5 => s
  | .bcps => setPpu { s.ppu with bcpsInc := bit v 7, bcpsIdx := v.extractLsb' 0 6 } s
  | .bcpd => writeBgPalette v s
  | .ocps => setPpu { s.ppu with ocpsInc := bit v 7, ocpsIdx := v.extractLsb' 0 6 } s
  | .ocpd => writeObjPalette v s
  | .svbk => { s with bus := { s.bus with svbk := v.extractLsb' 0 3 } }

end Sys2Proof.Machine
end

