-- ==== Sys2Proof/Machine/Bus.lean ====
section
/-! DEFINITION. The memory bus (spec/20_memory.md R72, R80 to R95) and the two DMA engines (R98, R99). -/

namespace Sys2Proof.Machine

/-- The rows of the address map R72, each with the offset into its store or window. -/
inductive Region where
  | romFixed (off : Nat)
  | romBanked (off : Nat)
  | vram (off : Nat)
  | cartRam (off : Nat)
  | wramFixed (off : Nat)
  | wramBanked (off : Nat)
  | oam (off : Nat)
  | nothing
  | io (n : Nat)
  | hram (off : Nat)
  | ie
  deriving DecidableEq, Repr

/-- The address that is read or written for `a`: `a - 0x2000` in echo RAM (R88). -/
def unecho (a : Nat) : Nat := if 0xE000 ≤ a ∧ a < 0xFE00 then a - 0x2000 else a

/-- The row of R72 that contains an address other than an echo address. -/
def regionOf (a : Nat) : Region :=
  if a < 0x4000 then .romFixed a
  else if a < 0x8000 then .romBanked (a - 0x4000)
  else if a < 0xA000 then .vram (a - 0x8000)
  else if a < 0xC000 then .cartRam (a - 0xA000)
  else if a < 0xD000 then .wramFixed (a - 0xC000)
  else if a < 0xFE00 then .wramBanked (a - 0xD000)
  else if a < 0xFEA0 then .oam (a - 0xFE00)
  else if a < 0xFF00 then .nothing
  else if a < 0xFF80 then .io (a - 0xFF00)
  else if a < 0xFFFF then .hram (a - 0xFF80)
  else .ie

/-- The row of R72 that serves address `a`. -/
def region (a : Word) : Region := regionOf (unecho a.toNat)

/-- Video RAM is hidden: mode 3 (R85). -/
def vramHidden (s : State) : Bool := s.ppu.mode == .transfer

/-- OAM is hidden: mode 2 or 3 (R89). -/
def oamHidden (s : State) : Bool := s.ppu.mode == .oamScan || s.ppu.mode == .transfer

/-- Index of offset `off` of the current video-RAM bank (R85). -/
def vramIndex (s : State) (off : Nat) : Nat := 0x2000 * s.bus.vbank.toNat + off

/-- Index of offset `off` of the current switchable work-RAM bank (R87). -/
def wramIndex (s : State) (off : Nat) : Nat := 0x1000 * wbank s + off

/-- A read of an address without a device (R95). -/
def readUnmapped (s : State) (a : Word) : Except Fault Byte :=
  match s.params.unmapped with
  | .ffIgnore => .ok 0xFF
  | .fault => .error (.busGap a)

/-- A write to an address without a device (R95). -/
def writeUnmapped (s : State) (a : Word) : Except Fault State :=
  match s.params.unmapped with
  | .ffIgnore => .ok s
  | .fault => .error (.busGap a)

/-- The byte at `a` with the mode gating of R85 and R89 (`gated`) or without it (the source reads of R98, R99). -/
def readWith (gated : Bool) (s : State) (a : Word) : Except Fault Byte :=
  match region a with
  | .romFixed off => .ok (readRomFixed s off)
  | .romBanked off => .ok (readRomBanked s off)
  | .vram off => .ok (if gated && vramHidden s then 0xFF else s.vram.read (vramIndex s off))
  | .cartRam off => .ok (readWindow s off)
  | .wramFixed off => .ok (s.wram.read off)
  | .wramBanked off => .ok (s.wram.read (wramIndex s off))
  | .oam off => .ok (if gated && oamHidden s then 0xFF else s.oam.read off)
  | .nothing => readUnmapped s a
  | .io n => match ioReg s.cart.colorMode n with
    | some r => .ok (readIo r s)
    | none => readUnmapped s a
  | .hram off => .ok (s.hram.read off)
  | .ie => .ok s.ieReg

/-- `MemRead(addr, 1)` (R80). -/
def readByte (s : State) (a : Word) : Except Fault Byte := readWith true s a

/-- The copy of R98, `OAM[i..] <- source[i..]` for `n` bytes. -/
def oamCopy (src : Word) : Nat → Nat → State → Except Fault State
  | _, 0, s => .ok s
  | i, n + 1, s => do
    let b ← readWith false s (src + BitVec.ofNat 16 i)
    oamCopy src (i + 1) n { s with oam := s.oam.write i b }

/-- Write `DMA` (R98). -/
def writeDma (v : Byte) (s : State) : Except Fault State :=
  if v.toNat < 0xE0 then oamCopy (word v 0) 0 160 { s with bus := { s.bus with dma := v } }
  else .ok { s with bus := { s.bus with dma := v } }

/-- `n` bytes from `hdma_src` to the current video-RAM bank at `hdma_dst`, advancing both (R99). THE MODEL'S CHOICES:
byte by byte in rising order, so that a source in video RAM that overlaps the destination is read as already written
(R99 says only "at once"; log entry 29); whatever the mode (log entry 11); `hdma_dst` wraps modulo 8192 (log entry 25). -/
def hdmaCopy : Nat → State → Except Fault State
  | 0, s => .ok s
  | n + 1, s => do
    let b ← readWith false s s.bus.hdmaSrc
    hdmaCopy n { s with vram := s.vram.write (vramIndex s s.bus.hdmaDst.toNat) b,
                        bus := { s.bus with hdmaSrc := s.bus.hdmaSrc + 1, hdmaDst := s.bus.hdmaDst + 1 } }

/-- One block of a horizontal-blank transfer, with what follows it (R99). -/
def hdmaBlock (s : State) : Except Fault State := do
  let s1 ← hdmaCopy 16 s
  .ok (if s1.bus.hdmaLen = 0 then { s1 with bus := { s1.bus with hdmaActive := false, hdma5Idle := 0xFF } }
       else { s1 with bus := { s1.bus with hdmaLen := s1.bus.hdmaLen - 1 } })

/-- Write `HDMA5` (R99); a general transfer first renders the line so far (R420). -/
def writeHdma5 (v : Byte) (s : State) : Except Fault State :=
  match s.bus.hdmaActive, bit v 7 with
  | false, false => do
    let s1 ← hdmaCopy (16 * (v.toNat % 128 + 1)) (renderSoFar s)
    .ok { s1 with bus := { s1.bus with hdma5Idle := 0xFF } }
  | false, true => .ok { s with bus := { s.bus with hdmaActive := true, hdmaLen := v.extractLsb' 0 7 } }
  | true, false =>
    .ok { s with bus := { s.bus with hdmaActive := false, hdma5Idle := BitVec.ofBool true ++ s.bus.hdmaLen } }
  | true, true => .ok { s with bus := { s.bus with hdmaLen := v.extractLsb' 0 7 } }

/-- The write of an I/O register (R92). -/
def writeIo (r : IoReg) (v : Byte) (s : State) : Except Fault State :=
  if r = .dma then writeDma v s else if r = .hdma5 then writeHdma5 v s else .ok (writeIoPlain r v s)

/-- `MemWrite(addr, 1, v)` (R81). -/
def writeByte (s : State) (a : Word) (v : Byte) : Except Fault State :=
  match region a with
  | .romFixed off => .ok (writeController s off v)
  | .romBanked off => .ok (writeController s (0x4000 + off) v)
  | .vram off => .ok (if vramHidden s then s else { s with vram := s.vram.write (vramIndex s off) v })
  | .cartRam off => .ok (writeWindow s off v)
  | .wramFixed off => .ok { s with wram := s.wram.write off v }
  | .wramBanked off => .ok { s with wram := s.wram.write (wramIndex s off) v }
  | .oam off => .ok (if oamHidden s then s else { s with oam := s.oam.write off v })
  | .nothing => writeUnmapped s a
  | .io n => match ioReg s.cart.colorMode n with
    | some r => writeIo r v s
    | none => writeUnmapped s a
  | .hram off => .ok { s with hram := s.hram.write off v }
  | .ie => .ok { s with ieReg := v }

end Sys2Proof.Machine
end

