-- ==== Sys2Proof/Machine/Ops.lean ====
section
/-! DEFINITION. The shared operations the meanings are written over: the pseudocode primitives of
spec/00_scope.md R13 (fetch, push, pop), one operation per instruction form, taking an interrupt
(spec/60_exceptions.md R347, the one event that saves the program counter and jumps to a vector) and the return
from it (spec/45_control_flow.md R309). An operation answers the next state or the fault that discards the step
(R344, R360). -/

namespace Sys2Proof.Machine

/-- An operation's answer as the outcome of an instruction. -/
def Result.ofExcept (r : Except Fault State) : Result :=
  match r with
  | .ok s => .next s
  | .error f => .fault f

/-- `Fetch8()` of R13. -/
def fetch8 (s : State) : Except Fault (Byte × State) := do
  let b ← readByte s s.cpu.pc
  .ok (b, setPc (s.cpu.pc + 1) s)

/-- The opcode fetch of R341 item 4: with `halt_repeat` the program counter stays (R30). -/
def fetchOpcode (s : State) : Except Fault (Byte × State) :=
  if s.cpu.haltRepeat then do
    let b ← readByte s s.cpu.pc
    .ok (b, { s with cpu := { s.cpu with haltRepeat := false } })
  else fetch8 s

/-- `Push16(v)` of R13. -/
def push16 (v : Word) (s : State) : Except Fault State := do
  let s1 ← writeByte (setSp (s.cpu.sp - 1) s) (s.cpu.sp - 1) (hiByte v)
  writeByte (setSp (s1.cpu.sp - 1) s1) (s1.cpu.sp - 1) (loByte v)

/-- `Pop16()` of R13. -/
def pop16 (s : State) : Except Fault (Word × State) := do
  let lo ← readByte s s.cpu.sp
  let hi ← readByte s (s.cpu.sp + 1)
  .ok (word hi lo, setSp (s.cpu.sp + 2) s)

/-- Taking interrupt `n` (R347): `IME` and the serviced request bit are cleared, `halt_repeat` is cleared, a
halted processor runs, `PC` is pushed, and `PC` becomes the vector. -/
def takeInterrupt (n : Source) (s : State) : Except Fault State := do
  let s1 : State := { s with
    ifReg := s.ifReg &&& ~~~n.mask
    cpu := { s.cpu with ime := false, haltRepeat := false,
                        runState := if s.cpu.runState = .halted then .running else s.cpu.runState } }
  let s2 ← push16 s1.cpu.pc s1
  .ok (setPc n.vector s2)

/-- `ime_pending <- 2` if no enable is in force or pending (R324). -/
def enableLater (s : State) : State :=
  if s.cpu.imePending = 0 ∧ s.cpu.ime = false then { s with cpu := { s.cpu with imePending := 2 } } else s

/-- The return from an interrupt handler (R309). -/
def returnFromInterrupt (s : State) : Except Fault State := do
  let (v, s1) ← pop16 s
  let s2 := setPc v s1
  .ok (if s2.params.retiDelay then enableLater s2 else { s2 with cpu := { s2.cpu with ime := true, imePending := 0 } })

/-- R160. -/
def ldReg (dst src : Reg8) (s : State) : Except Fault State := .ok (setReg dst (getReg src s) s)

/-- R161. -/
def ldImm (dst : Reg8) (imm : Byte) (s : State) : Except Fault State := .ok (setReg dst imm s)

/-- A register loaded from memory at `addr` (R162, R165, R166, R169, R171, R173). -/
def loadFrom (dst : Reg8) (addr : Word) (s : State) : Except Fault State := do
  let v ← readByte s addr
  .ok (setReg dst v s)

/-- `A` loaded from `HL`, then `HL` moved by `step` (R176, R178). -/
def loadHlStep (step : Word) (s : State) : Except Fault State := do
  let v ← readByte s (hl s)
  .ok (setHl (hl s + step) (setReg .a v s))

/-- `A` stored at `HL`, then `HL` moved by `step` (R175, R177). -/
def storeHlStep (step : Word) (s : State) : Except Fault State := do
  let s1 ← writeByte s (hl s) s.cpu.a
  .ok (setHl (hl s1 + step) s1)

/-- R200. -/
def ldPair (dst : Reg16) (imm : Word) (s : State) : Except Fault State := .ok (setPair dst imm s)

/-- `LD (a16),SP`: the low byte first, at the lower address (R201). -/
def storeSp (addr : Word) (s : State) : Except Fault State := do
  let s1 ← writeByte s addr (loByte s.cpu.sp)
  writeByte s1 (addr + 1) (hiByte s1.cpu.sp)

/-- R203. -/
def ldHlSp (off : Byte) (s : State) : Except Fault State :=
  .ok (setFlags (addSpE8 s.cpu.sp off).2 (setHl (addSpE8 s.cpu.sp off).1 s))

/-- R206. -/
def popPair (dst : StackPair) (s : State) : Except Fault State := do
  let (v, s1) ← pop16 s
  .ok (setStackPair dst v s1)

/-- R207. -/
def popAf (s : State) : Except Fault State := do
  let (v, s1) ← pop16 s
  .ok (setAf v s1)

/-- An ALU operation of `A` with the value `x` (R221 to R244); `CP` does not write `A`. -/
def aluValue (op : AluOp) (x : Byte) (s : State) : State :=
  setFlags (alu8 op s.cpu.a x s.cpu.cf).2 (setReg .a (alu8 op s.cpu.a x s.cpu.cf).1 s)

/-- An ALU operation with a register operand. -/
def aluReg (op : AluOp) (src : Reg8) (s : State) : Except Fault State := .ok (aluValue op (getReg src s) s)

/-- An ALU operation with an immediate operand. -/
def aluImm (op : AluOp) (imm : Byte) (s : State) : Except Fault State := .ok (aluValue op imm s)

/-- An ALU operation with the byte at `HL`. -/
def aluAtHl (op : AluOp) (s : State) : Except Fault State := do
  let v ← readByte s (hl s)
  .ok (aluValue op v s)

/-- R245. -/
def incReg (dst : Reg8) (s : State) : Except Fault State :=
  .ok (setFlags (inc8 (getReg dst s) s.cpu.cf).2 (setReg dst (inc8 (getReg dst s) s.cpu.cf).1 s))

/-- R247. -/
def decReg (dst : Reg8) (s : State) : Except Fault State :=
  .ok (setFlags (dec8 (getReg dst s) s.cpu.cf).2 (setReg dst (dec8 (getReg dst s) s.cpu.cf).1 s))

/-- A byte at `HL` read, changed and written back, then the flags set (R246, R248, R276 to R290). -/
def modifyAtHl (f : Byte → Byte × Flags) (s : State) : Except Fault State := do
  let v ← readByte s (hl s)
  let s1 ← writeByte s (hl s) (f v).1
  .ok (setFlags (f v).2 s1)

/-- R249. -/
def daa (s : State) : Except Fault State :=
  .ok (setFlags (daa8 s.cpu.a s.cpu.flags).2 (setReg .a (daa8 s.cpu.a s.cpu.flags).1 s))

/-- R250. -/
def cpl (s : State) : Except Fault State :=
  .ok (setFlags { s.cpu.flags with n := true, h := true } (setReg .a (~~~s.cpu.a) s))

/-- R251. -/
def scf (s : State) : Except Fault State := .ok (setFlags { s.cpu.flags with n := false, h := false, c := true } s)

/-- R252. -/
def ccf (s : State) : Except Fault State :=
  .ok (setFlags { s.cpu.flags with n := false, h := false, c := !s.cpu.cf } s)

/-- R260. -/
def addHl (src : Reg16) (s : State) : Except Fault State :=
  .ok (setFlags (add16 (hl s) (getPair src s) s.cpu.zf).2 (setHl (add16 (hl s) (getPair src s) s.cpu.zf).1 s))

/-- R261. -/
def incPair (dst : Reg16) (s : State) : Except Fault State := .ok (setPair dst (getPair dst s + 1) s)

/-- R262. -/
def decPair (dst : Reg16) (s : State) : Except Fault State := .ok (setPair dst (getPair dst s - 1) s)

/-- R263. -/
def addSp (off : Byte) (s : State) : Except Fault State :=
  .ok (setFlags (addSpE8 s.cpu.sp off).2 (setSp (addSpE8 s.cpu.sp off).1 s))

/-- A one-byte accumulator rotate (R271 to R274). -/
def rotateAcc (op : RotOp) (s : State) : Except Fault State :=
  .ok (setFlags (accRotateFlags (rotate8 op s.cpu.a s.cpu.cf)) (setReg .a (rotate8 op s.cpu.a s.cpu.cf).1 s))

/-- A rotate, shift or swap of a register (R275 to R289). -/
def rotateReg (op : RotOp) (dst : Reg8) (s : State) : Except Fault State :=
  .ok (setFlags (rotateFlags (rotate8 op (getReg dst s) s.cpu.cf)) (setReg dst (rotate8 op (getReg dst s) s.cpu.cf).1 s))

/-- A rotate, shift or swap of the byte at `HL` (R276 to R290). -/
def rotateAtHl (op : RotOp) (s : State) : Except Fault State :=
  modifyAtHl (fun v => ((rotate8 op v s.cpu.cf).1, rotateFlags (rotate8 op v s.cpu.cf))) s

/-- R291. -/
def bitReg (n : BitNo) (src : Reg8) (s : State) : Except Fault State :=
  .ok (setFlags (bitFlags (getReg src s) (bitIndex n) s.cpu.cf) s)

/-- R292. -/
def bitAtHl (n : BitNo) (s : State) : Except Fault State := do
  let v ← readByte s (hl s)
  .ok (setFlags (bitFlags v (bitIndex n) s.cpu.cf) s)

/-- R293. -/
def resReg (n : BitNo) (dst : Reg8) (s : State) : Except Fault State := .ok (setReg dst (clearBit (getReg dst s) n) s)

/-- R295. -/
def setBitReg (n : BitNo) (dst : Reg8) (s : State) : Except Fault State := .ok (setReg dst (setBit (getReg dst s) n) s)

/-- A byte at `HL` read, changed and written back, no flag changed (R294, R296). -/
def rewriteAtHl (f : Byte → Byte) (s : State) : Except Fault State := do
  let v ← readByte s (hl s)
  writeByte s (hl s) (f v)

/-- R301, R303. -/
def jump (addr : Word) (s : State) : Except Fault State := .ok (setPc addr s)

/-- The target of a relative jump from the address after the instruction (R304). -/
def relativeTarget (off : Byte) (s : State) : Word := s.cpu.pc + sext16 off

/-- R306. -/
def call (addr : Word) (s : State) : Except Fault State := do
  let s1 ← push16 s.cpu.pc s
  .ok (setPc addr s1)

/-- R308. -/
def ret (s : State) : Except Fault State := do
  let (v, s1) ← pop16 s
  .ok (setPc v s1)

/-- An operation done only if a condition holds (R302, R305, R307, R311). -/
def onCondition (cc : Cond) (f : State → Except Fault State) (s : State) : Except Fault State :=
  if condition cc s then f s else .ok s

/-- R320. -/
def nop (s : State) : Except Fault State := .ok s

/-- R321. -/
def halt (s : State) : Except Fault State :=
  .ok (if pending s = 0 then { s with cpu := { s.cpu with runState := .halted } }
       else match s.params.haltPending with
         | .repeatByte => { s with cpu := { s.cpu with haltRepeat := true } }
         | .fallthrough => s)

/-- R322. -/
def stop (second : Byte) (s : State) : Except Fault State :=
  if second ≠ 0 then .error (.reservedStopOperand second)
  else if s.cart.colorMode && s.key1Armed then
    .ok { s with key1Armed := false, cpu := { s.cpu with speedShift := !s.cpu.speedShift } }
  else .ok { s with cpu := { s.cpu with runState := .stopped } }

/-- R323. -/
def di (s : State) : Except Fault State := .ok { s with cpu := { s.cpu with ime := false, imePending := 0 } }

/-- R324. -/
def ei (s : State) : Except Fault State := .ok (enableLater s)

/-- R326, under `ILLEGAL_POLICY = fault`, the only policy (R9). -/
def illegal (op : IllegalByte) (s : State) : Except Fault State :=
  match s.params.illegal with
  | .fault => .error (.illegalOpcode (illegalByte op))

end Sys2Proof.Machine
end

