-- ==== Sys2Proof/Machine/Alu16.lean ====
section
/-! DEFINITION. The meanings of 16-bit arithmetic (spec/43_alu16.md R260 to R264), one for each row of the opcode table,
over the shared operations of Ops.lean. -/

namespace Sys2Proof.Machine

/-- `INC BC` (R261). -/
def execIncBc (s : State) : Result := .ofExcept (incPair .bc s)

/-- `ADD HL,BC` (R260). -/
def execAddHlBc (s : State) : Result := .ofExcept (addHl .bc s)

/-- `DEC BC` (R262). -/
def execDecBc (s : State) : Result := .ofExcept (decPair .bc s)

/-- `INC DE` (R261). -/
def execIncDe (s : State) : Result := .ofExcept (incPair .de s)

/-- `ADD HL,DE` (R260). -/
def execAddHlDe (s : State) : Result := .ofExcept (addHl .de s)

/-- `DEC DE` (R262). -/
def execDecDe (s : State) : Result := .ofExcept (decPair .de s)

/-- `INC HL` (R261). -/
def execIncHl (s : State) : Result := .ofExcept (incPair .hl s)

/-- `ADD HL,HL` (R260). -/
def execAddHlHl (s : State) : Result := .ofExcept (addHl .hl s)

/-- `DEC HL` (R262). -/
def execDecHl (s : State) : Result := .ofExcept (decPair .hl s)

/-- `INC SP` (R261). -/
def execIncSp (s : State) : Result := .ofExcept (incPair .sp s)

/-- `ADD HL,SP` (R260). -/
def execAddHlSp (s : State) : Result := .ofExcept (addHl .sp s)

/-- `DEC SP` (R262). -/
def execDecSp (s : State) : Result := .ofExcept (decPair .sp s)

/-- `ADD SP,e8` (R263). -/
def execAddSpE8 (off : Byte) (s : State) : Result := .ofExcept (addSp off s)

end Sys2Proof.Machine
end

