-- ==== Sys2Proof/Machine/Alu8.lean ====
section
/-! DEFINITION. The meanings of 8-bit arithmetic and logic (spec/42_alu8.md R220 to R252), one for each row of the opcode table,
over the shared operations of Ops.lean. -/

namespace Sys2Proof.Machine

/-- `INC B` (R245). -/
def execIncB (s : State) : Result := .ofExcept (incReg .b s)

/-- `DEC B` (R247). -/
def execDecB (s : State) : Result := .ofExcept (decReg .b s)

/-- `INC C` (R245). -/
def execIncC (s : State) : Result := .ofExcept (incReg .c s)

/-- `DEC C` (R247). -/
def execDecC (s : State) : Result := .ofExcept (decReg .c s)

/-- `INC D` (R245). -/
def execIncD (s : State) : Result := .ofExcept (incReg .d s)

/-- `DEC D` (R247). -/
def execDecD (s : State) : Result := .ofExcept (decReg .d s)

/-- `INC E` (R245). -/
def execIncE (s : State) : Result := .ofExcept (incReg .e s)

/-- `DEC E` (R247). -/
def execDecE (s : State) : Result := .ofExcept (decReg .e s)

/-- `INC H` (R245). -/
def execIncH (s : State) : Result := .ofExcept (incReg .h s)

/-- `DEC H` (R247). -/
def execDecH (s : State) : Result := .ofExcept (decReg .h s)

/-- `DAA` (R249). -/
def execDaa (s : State) : Result := .ofExcept (daa s)

/-- `INC L` (R245). -/
def execIncL (s : State) : Result := .ofExcept (incReg .l s)

/-- `DEC L` (R247). -/
def execDecL (s : State) : Result := .ofExcept (decReg .l s)

/-- `CPL` (R250). -/
def execCpl (s : State) : Result := .ofExcept (cpl s)

/-- `INC (HL)` (R246). -/
def execIncAtHl (s : State) : Result := .ofExcept (modifyAtHl (fun v => inc8 v s.cpu.cf) s)

/-- `DEC (HL)` (R248). -/
def execDecAtHl (s : State) : Result := .ofExcept (modifyAtHl (fun v => dec8 v s.cpu.cf) s)

/-- `SCF` (R251). -/
def execScf (s : State) : Result := .ofExcept (scf s)

/-- `INC A` (R245). -/
def execIncA (s : State) : Result := .ofExcept (incReg .a s)

/-- `DEC A` (R247). -/
def execDecA (s : State) : Result := .ofExcept (decReg .a s)

/-- `CCF` (R252). -/
def execCcf (s : State) : Result := .ofExcept (ccf s)

/-- `ADD A,B` (R221). -/
def execAddAB (s : State) : Result := .ofExcept (aluReg .add .b s)

/-- `ADD A,C` (R221). -/
def execAddAC (s : State) : Result := .ofExcept (aluReg .add .c s)

/-- `ADD A,D` (R221). -/
def execAddAD (s : State) : Result := .ofExcept (aluReg .add .d s)

/-- `ADD A,E` (R221). -/
def execAddAE (s : State) : Result := .ofExcept (aluReg .add .e s)

/-- `ADD A,H` (R221). -/
def execAddAH (s : State) : Result := .ofExcept (aluReg .add .h s)

/-- `ADD A,L` (R221). -/
def execAddAL (s : State) : Result := .ofExcept (aluReg .add .l s)

/-- `ADD A,(HL)` (R222). -/
def execAddAAtHl (s : State) : Result := .ofExcept (aluAtHl .add s)

/-- `ADD A,A` (R221). -/
def execAddAA (s : State) : Result := .ofExcept (aluReg .add .a s)

/-- `ADC A,B` (R224). -/
def execAdcAB (s : State) : Result := .ofExcept (aluReg .adc .b s)

/-- `ADC A,C` (R224). -/
def execAdcAC (s : State) : Result := .ofExcept (aluReg .adc .c s)

/-- `ADC A,D` (R224). -/
def execAdcAD (s : State) : Result := .ofExcept (aluReg .adc .d s)

/-- `ADC A,E` (R224). -/
def execAdcAE (s : State) : Result := .ofExcept (aluReg .adc .e s)

/-- `ADC A,H` (R224). -/
def execAdcAH (s : State) : Result := .ofExcept (aluReg .adc .h s)

/-- `ADC A,L` (R224). -/
def execAdcAL (s : State) : Result := .ofExcept (aluReg .adc .l s)

/-- `ADC A,(HL)` (R225). -/
def execAdcAAtHl (s : State) : Result := .ofExcept (aluAtHl .adc s)

/-- `ADC A,A` (R224). -/
def execAdcAA (s : State) : Result := .ofExcept (aluReg .adc .a s)

/-- `SUB B` (R227). -/
def execSubB (s : State) : Result := .ofExcept (aluReg .sub .b s)

/-- `SUB C` (R227). -/
def execSubC (s : State) : Result := .ofExcept (aluReg .sub .c s)

/-- `SUB D` (R227). -/
def execSubD (s : State) : Result := .ofExcept (aluReg .sub .d s)

/-- `SUB E` (R227). -/
def execSubE (s : State) : Result := .ofExcept (aluReg .sub .e s)

/-- `SUB H` (R227). -/
def execSubH (s : State) : Result := .ofExcept (aluReg .sub .h s)

/-- `SUB L` (R227). -/
def execSubL (s : State) : Result := .ofExcept (aluReg .sub .l s)

/-- `SUB (HL)` (R228). -/
def execSubAtHl (s : State) : Result := .ofExcept (aluAtHl .sub s)

/-- `SUB A` (R227). -/
def execSubA (s : State) : Result := .ofExcept (aluReg .sub .a s)

/-- `SBC A,B` (R230). -/
def execSbcAB (s : State) : Result := .ofExcept (aluReg .sbc .b s)

/-- `SBC A,C` (R230). -/
def execSbcAC (s : State) : Result := .ofExcept (aluReg .sbc .c s)

/-- `SBC A,D` (R230). -/
def execSbcAD (s : State) : Result := .ofExcept (aluReg .sbc .d s)

/-- `SBC A,E` (R230). -/
def execSbcAE (s : State) : Result := .ofExcept (aluReg .sbc .e s)

/-- `SBC A,H` (R230). -/
def execSbcAH (s : State) : Result := .ofExcept (aluReg .sbc .h s)

/-- `SBC A,L` (R230). -/
def execSbcAL (s : State) : Result := .ofExcept (aluReg .sbc .l s)

/-- `SBC A,(HL)` (R231). -/
def execSbcAAtHl (s : State) : Result := .ofExcept (aluAtHl .sbc s)

/-- `SBC A,A` (R230). -/
def execSbcAA (s : State) : Result := .ofExcept (aluReg .sbc .a s)

/-- `AND B` (R233). -/
def execAndB (s : State) : Result := .ofExcept (aluReg .and .b s)

/-- `AND C` (R233). -/
def execAndC (s : State) : Result := .ofExcept (aluReg .and .c s)

/-- `AND D` (R233). -/
def execAndD (s : State) : Result := .ofExcept (aluReg .and .d s)

/-- `AND E` (R233). -/
def execAndE (s : State) : Result := .ofExcept (aluReg .and .e s)

/-- `AND H` (R233). -/
def execAndH (s : State) : Result := .ofExcept (aluReg .and .h s)

/-- `AND L` (R233). -/
def execAndL (s : State) : Result := .ofExcept (aluReg .and .l s)

/-- `AND (HL)` (R234). -/
def execAndAtHl (s : State) : Result := .ofExcept (aluAtHl .and s)

/-- `AND A` (R233). -/
def execAndA (s : State) : Result := .ofExcept (aluReg .and .a s)

/-- `XOR B` (R236). -/
def execXorB (s : State) : Result := .ofExcept (aluReg .xor .b s)

/-- `XOR C` (R236). -/
def execXorC (s : State) : Result := .ofExcept (aluReg .xor .c s)

/-- `XOR D` (R236). -/
def execXorD (s : State) : Result := .ofExcept (aluReg .xor .d s)

/-- `XOR E` (R236). -/
def execXorE (s : State) : Result := .ofExcept (aluReg .xor .e s)

/-- `XOR H` (R236). -/
def execXorH (s : State) : Result := .ofExcept (aluReg .xor .h s)

/-- `XOR L` (R236). -/
def execXorL (s : State) : Result := .ofExcept (aluReg .xor .l s)

/-- `XOR (HL)` (R237). -/
def execXorAtHl (s : State) : Result := .ofExcept (aluAtHl .xor s)

/-- `XOR A` (R236). -/
def execXorA (s : State) : Result := .ofExcept (aluReg .xor .a s)

/-- `OR B` (R239). -/
def execOrB (s : State) : Result := .ofExcept (aluReg .or .b s)

/-- `OR C` (R239). -/
def execOrC (s : State) : Result := .ofExcept (aluReg .or .c s)

/-- `OR D` (R239). -/
def execOrD (s : State) : Result := .ofExcept (aluReg .or .d s)

/-- `OR E` (R239). -/
def execOrE (s : State) : Result := .ofExcept (aluReg .or .e s)

/-- `OR H` (R239). -/
def execOrH (s : State) : Result := .ofExcept (aluReg .or .h s)

/-- `OR L` (R239). -/
def execOrL (s : State) : Result := .ofExcept (aluReg .or .l s)

/-- `OR (HL)` (R240). -/
def execOrAtHl (s : State) : Result := .ofExcept (aluAtHl .or s)

/-- `OR A` (R239). -/
def execOrA (s : State) : Result := .ofExcept (aluReg .or .a s)

/-- `CP B` (R242). -/
def execCpB (s : State) : Result := .ofExcept (aluReg .cp .b s)

/-- `CP C` (R242). -/
def execCpC (s : State) : Result := .ofExcept (aluReg .cp .c s)

/-- `CP D` (R242). -/
def execCpD (s : State) : Result := .ofExcept (aluReg .cp .d s)

/-- `CP E` (R242). -/
def execCpE (s : State) : Result := .ofExcept (aluReg .cp .e s)

/-- `CP H` (R242). -/
def execCpH (s : State) : Result := .ofExcept (aluReg .cp .h s)

/-- `CP L` (R242). -/
def execCpL (s : State) : Result := .ofExcept (aluReg .cp .l s)

/-- `CP (HL)` (R243). -/
def execCpAtHl (s : State) : Result := .ofExcept (aluAtHl .cp s)

/-- `CP A` (R242). -/
def execCpA (s : State) : Result := .ofExcept (aluReg .cp .a s)

/-- `ADD A,d8` (R223). -/
def execAddAD8 (imm : Byte) (s : State) : Result := .ofExcept (aluImm .add imm s)

/-- `ADC A,d8` (R226). -/
def execAdcAD8 (imm : Byte) (s : State) : Result := .ofExcept (aluImm .adc imm s)

/-- `SUB d8` (R229). -/
def execSubD8 (imm : Byte) (s : State) : Result := .ofExcept (aluImm .sub imm s)

/-- `SBC A,d8` (R232). -/
def execSbcAD8 (imm : Byte) (s : State) : Result := .ofExcept (aluImm .sbc imm s)

/-- `AND d8` (R235). -/
def execAndD8 (imm : Byte) (s : State) : Result := .ofExcept (aluImm .and imm s)

/-- `XOR d8` (R238). -/
def execXorD8 (imm : Byte) (s : State) : Result := .ofExcept (aluImm .xor imm s)

/-- `OR d8` (R241). -/
def execOrD8 (imm : Byte) (s : State) : Result := .ofExcept (aluImm .or imm s)

/-- `CP d8` (R244). -/
def execCpD8 (imm : Byte) (s : State) : Result := .ofExcept (aluImm .cp imm s)

end Sys2Proof.Machine
end

