-- ==== Sys2Proof/Machine/Control.lean ====
section
/-! DEFINITION. The meanings of jumps, calls and returns (spec/45_control_flow.md R300 to R311), one for each row of the opcode table,
over the shared operations of Ops.lean. -/

namespace Sys2Proof.Machine

/-- `JR e8` (R304). -/
def execJrE8 (off : Byte) (s : State) : Result := .ofExcept (jump (relativeTarget off s) s)

/-- `JR NZ,e8` (R305). -/
def execJrNzE8 (off : Byte) (s : State) : Result := .ofExcept (onCondition .nz (jump (relativeTarget off s)) s)

/-- `JR Z,e8` (R305). -/
def execJrZE8 (off : Byte) (s : State) : Result := .ofExcept (onCondition .z (jump (relativeTarget off s)) s)

/-- `JR NC,e8` (R305). -/
def execJrNcE8 (off : Byte) (s : State) : Result := .ofExcept (onCondition .nc (jump (relativeTarget off s)) s)

/-- `JR C,e8` (R305). -/
def execJrCE8 (off : Byte) (s : State) : Result := .ofExcept (onCondition .c (jump (relativeTarget off s)) s)

/-- `RET NZ` (R311). -/
def execRetNz (s : State) : Result := .ofExcept (onCondition .nz ret s)

/-- `JP NZ,a16` (R302). -/
def execJpNzA16 (addr : Word) (s : State) : Result := .ofExcept (onCondition .nz (jump addr) s)

/-- `JP a16` (R301). -/
def execJpA16 (addr : Word) (s : State) : Result := .ofExcept (jump addr s)

/-- `CALL NZ,a16` (R307). -/
def execCallNzA16 (addr : Word) (s : State) : Result := .ofExcept (onCondition .nz (call addr) s)

/-- `RST 00h` (R310). -/
def execRst00 (s : State) : Result := .ofExcept (call (restartAddress .t00) s)

/-- `RET Z` (R311). -/
def execRetZ (s : State) : Result := .ofExcept (onCondition .z ret s)

/-- `RET` (R308). -/
def execRet (s : State) : Result := .ofExcept (ret s)

/-- `JP Z,a16` (R302). -/
def execJpZA16 (addr : Word) (s : State) : Result := .ofExcept (onCondition .z (jump addr) s)

/-- `CALL Z,a16` (R307). -/
def execCallZA16 (addr : Word) (s : State) : Result := .ofExcept (onCondition .z (call addr) s)

/-- `CALL a16` (R306). -/
def execCallA16 (addr : Word) (s : State) : Result := .ofExcept (call addr s)

/-- `RST 08h` (R310). -/
def execRst08 (s : State) : Result := .ofExcept (call (restartAddress .t08) s)

/-- `RET NC` (R311). -/
def execRetNc (s : State) : Result := .ofExcept (onCondition .nc ret s)

/-- `JP NC,a16` (R302). -/
def execJpNcA16 (addr : Word) (s : State) : Result := .ofExcept (onCondition .nc (jump addr) s)

/-- `CALL NC,a16` (R307). -/
def execCallNcA16 (addr : Word) (s : State) : Result := .ofExcept (onCondition .nc (call addr) s)

/-- `RST 10h` (R310). -/
def execRst10 (s : State) : Result := .ofExcept (call (restartAddress .t10) s)

/-- `RET C` (R311). -/
def execRetC (s : State) : Result := .ofExcept (onCondition .c ret s)

/-- `RETI` (R309). -/
def execReti (s : State) : Result := .ofExcept (returnFromInterrupt s)

/-- `JP C,a16` (R302). -/
def execJpCA16 (addr : Word) (s : State) : Result := .ofExcept (onCondition .c (jump addr) s)

/-- `CALL C,a16` (R307). -/
def execCallCA16 (addr : Word) (s : State) : Result := .ofExcept (onCondition .c (call addr) s)

/-- `RST 18h` (R310). -/
def execRst18 (s : State) : Result := .ofExcept (call (restartAddress .t18) s)

/-- `RST 20h` (R310). -/
def execRst20 (s : State) : Result := .ofExcept (call (restartAddress .t20) s)

/-- `JP HL` (R303). -/
def execJpHl (s : State) : Result := .ofExcept (jump (hl s) s)

/-- `RST 28h` (R310). -/
def execRst28 (s : State) : Result := .ofExcept (call (restartAddress .t28) s)

/-- `RST 30h` (R310). -/
def execRst30 (s : State) : Result := .ofExcept (call (restartAddress .t30) s)

/-- `RST 38h` (R310). -/
def execRst38 (s : State) : Result := .ofExcept (call (restartAddress .t38) s)

end Sys2Proof.Machine
end

