-- ==== Sys2Proof/Machine/Load16.lean ====
section
/-! DEFINITION. The meanings of the 16-bit loads and the stack (spec/41_load16_stack.md R200 to R207), one for each row of the opcode table,
over the shared operations of Ops.lean. -/

namespace Sys2Proof.Machine

/-- `LD BC,d16` (R200). -/
def execLdBcD16 (imm : Word) (s : State) : Result := .ofExcept (ldPair .bc imm s)

/-- `LD (a16),SP` (R201). -/
def execLdAtA16Sp (addr : Word) (s : State) : Result := .ofExcept (storeSp addr s)

/-- `LD DE,d16` (R200). -/
def execLdDeD16 (imm : Word) (s : State) : Result := .ofExcept (ldPair .de imm s)

/-- `LD HL,d16` (R200). -/
def execLdHlD16 (imm : Word) (s : State) : Result := .ofExcept (ldPair .hl imm s)

/-- `LD SP,d16` (R200). -/
def execLdSpD16 (imm : Word) (s : State) : Result := .ofExcept (ldPair .sp imm s)

/-- `POP BC` (R206). -/
def execPopBc (s : State) : Result := .ofExcept (popPair .bc s)

/-- `PUSH BC` (R204). -/
def execPushBc (s : State) : Result := .ofExcept (push16 (getStackPair .bc s) s)

/-- `POP DE` (R206). -/
def execPopDe (s : State) : Result := .ofExcept (popPair .de s)

/-- `PUSH DE` (R204). -/
def execPushDe (s : State) : Result := .ofExcept (push16 (getStackPair .de s) s)

/-- `POP HL` (R206). -/
def execPopHl (s : State) : Result := .ofExcept (popPair .hl s)

/-- `PUSH HL` (R204). -/
def execPushHl (s : State) : Result := .ofExcept (push16 (getStackPair .hl s) s)

/-- `POP AF` (R207). -/
def execPopAf (s : State) : Result := .ofExcept (popAf s)

/-- `PUSH AF` (R205). -/
def execPushAf (s : State) : Result := .ofExcept (push16 (af s) s)

/-- `LD HL,SP+e8` (R203). -/
def execLdHlSpE8 (off : Byte) (s : State) : Result := .ofExcept (ldHlSp off s)

/-- `LD SP,HL` (R202). -/
def execLdSpHl (s : State) : Result := .ofExcept (.ok (setSp (hl s) s))

end Sys2Proof.Machine
end

