-- ==== Sys2Proof/Machine/Load8.lean ====
section
/-! DEFINITION. The meanings of the 8-bit loads (spec/40_load8.md R160 to R178), one for each row of the opcode table,
over the shared operations of Ops.lean. -/

namespace Sys2Proof.Machine

/-- `LD (BC),A` (R167). -/
def execLdAtBcA (s : State) : Result := .ofExcept (writeByte s (bc s) s.cpu.a)

/-- `LD B,d8` (R161). -/
def execLdBD8 (imm : Byte) (s : State) : Result := .ofExcept (ldImm .b imm s)

/-- `LD A,(BC)` (R165). -/
def execLdAAtBc (s : State) : Result := .ofExcept (loadFrom .a (bc s) s)

/-- `LD C,d8` (R161). -/
def execLdCD8 (imm : Byte) (s : State) : Result := .ofExcept (ldImm .c imm s)

/-- `LD (DE),A` (R168). -/
def execLdAtDeA (s : State) : Result := .ofExcept (writeByte s (de s) s.cpu.a)

/-- `LD D,d8` (R161). -/
def execLdDD8 (imm : Byte) (s : State) : Result := .ofExcept (ldImm .d imm s)

/-- `LD A,(DE)` (R166). -/
def execLdAAtDe (s : State) : Result := .ofExcept (loadFrom .a (de s) s)

/-- `LD E,d8` (R161). -/
def execLdED8 (imm : Byte) (s : State) : Result := .ofExcept (ldImm .e imm s)

/-- `LD (HL+),A` (R175). -/
def execLdAtHlIncA (s : State) : Result := .ofExcept (storeHlStep 1 s)

/-- `LD H,d8` (R161). -/
def execLdHD8 (imm : Byte) (s : State) : Result := .ofExcept (ldImm .h imm s)

/-- `LD A,(HL+)` (R176). -/
def execLdAAtHlInc (s : State) : Result := .ofExcept (loadHlStep 1 s)

/-- `LD L,d8` (R161). -/
def execLdLD8 (imm : Byte) (s : State) : Result := .ofExcept (ldImm .l imm s)

/-- `LD (HL-),A` (R177). -/
def execLdAtHlDecA (s : State) : Result := .ofExcept (storeHlStep (-1) s)

/-- `LD (HL),d8` (R164). -/
def execLdAtHlD8 (imm : Byte) (s : State) : Result := .ofExcept (writeByte s (hl s) imm)

/-- `LD A,(HL-)` (R178). -/
def execLdAAtHlDec (s : State) : Result := .ofExcept (loadHlStep (-1) s)

/-- `LD A,d8` (R161). -/
def execLdAD8 (imm : Byte) (s : State) : Result := .ofExcept (ldImm .a imm s)

/-- `LD B,B` (R160). -/
def execLdBB (s : State) : Result := .ofExcept (ldReg .b .b s)

/-- `LD B,C` (R160). -/
def execLdBC (s : State) : Result := .ofExcept (ldReg .b .c s)

/-- `LD B,D` (R160). -/
def execLdBD (s : State) : Result := .ofExcept (ldReg .b .d s)

/-- `LD B,E` (R160). -/
def execLdBE (s : State) : Result := .ofExcept (ldReg .b .e s)

/-- `LD B,H` (R160). -/
def execLdBH (s : State) : Result := .ofExcept (ldReg .b .h s)

/-- `LD B,L` (R160). -/
def execLdBL (s : State) : Result := .ofExcept (ldReg .b .l s)

/-- `LD B,(HL)` (R162). -/
def execLdBAtHl (s : State) : Result := .ofExcept (loadFrom .b (hl s) s)

/-- `LD B,A` (R160). -/
def execLdBA (s : State) : Result := .ofExcept (ldReg .b .a s)

/-- `LD C,B` (R160). -/
def execLdCB (s : State) : Result := .ofExcept (ldReg .c .b s)

/-- `LD C,C` (R160). -/
def execLdCC (s : State) : Result := .ofExcept (ldReg .c .c s)

/-- `LD C,D` (R160). -/
def execLdCD (s : State) : Result := .ofExcept (ldReg .c .d s)

/-- `LD C,E` (R160). -/
def execLdCE (s : State) : Result := .ofExcept (ldReg .c .e s)

/-- `LD C,H` (R160). -/
def execLdCH (s : State) : Result := .ofExcept (ldReg .c .h s)

/-- `LD C,L` (R160). -/
def execLdCL (s : State) : Result := .ofExcept (ldReg .c .l s)

/-- `LD C,(HL)` (R162). -/
def execLdCAtHl (s : State) : Result := .ofExcept (loadFrom .c (hl s) s)

/-- `LD C,A` (R160). -/
def execLdCA (s : State) : Result := .ofExcept (ldReg .c .a s)

/-- `LD D,B` (R160). -/
def execLdDB (s : State) : Result := .ofExcept (ldReg .d .b s)

/-- `LD D,C` (R160). -/
def execLdDC (s : State) : Result := .ofExcept (ldReg .d .c s)

/-- `LD D,D` (R160). -/
def execLdDD (s : State) : Result := .ofExcept (ldReg .d .d s)

/-- `LD D,E` (R160). -/
def execLdDE (s : State) : Result := .ofExcept (ldReg .d .e s)

/-- `LD D,H` (R160). -/
def execLdDH (s : State) : Result := .ofExcept (ldReg .d .h s)

/-- `LD D,L` (R160). -/
def execLdDL (s : State) : Result := .ofExcept (ldReg .d .l s)

/-- `LD D,(HL)` (R162). -/
def execLdDAtHl (s : State) : Result := .ofExcept (loadFrom .d (hl s) s)

/-- `LD D,A` (R160). -/
def execLdDA (s : State) : Result := .ofExcept (ldReg .d .a s)

/-- `LD E,B` (R160). -/
def execLdEB (s : State) : Result := .ofExcept (ldReg .e .b s)

/-- `LD E,C` (R160). -/
def execLdEC (s : State) : Result := .ofExcept (ldReg .e .c s)

/-- `LD E,D` (R160). -/
def execLdED (s : State) : Result := .ofExcept (ldReg .e .d s)

/-- `LD E,E` (R160). -/
def execLdEE (s : State) : Result := .ofExcept (ldReg .e .e s)

/-- `LD E,H` (R160). -/
def execLdEH (s : State) : Result := .ofExcept (ldReg .e .h s)

/-- `LD E,L` (R160). -/
def execLdEL (s : State) : Result := .ofExcept (ldReg .e .l s)

/-- `LD E,(HL)` (R162). -/
def execLdEAtHl (s : State) : Result := .ofExcept (loadFrom .e (hl s) s)

/-- `LD E,A` (R160). -/
def execLdEA (s : State) : Result := .ofExcept (ldReg .e .a s)

/-- `LD H,B` (R160). -/
def execLdHB (s : State) : Result := .ofExcept (ldReg .h .b s)

/-- `LD H,C` (R160). -/
def execLdHC (s : State) : Result := .ofExcept (ldReg .h .c s)

/-- `LD H,D` (R160). -/
def execLdHD (s : State) : Result := .ofExcept (ldReg .h .d s)

/-- `LD H,E` (R160). -/
def execLdHE (s : State) : Result := .ofExcept (ldReg .h .e s)

/-- `LD H,H` (R160). -/
def execLdHH (s : State) : Result := .ofExcept (ldReg .h .h s)

/-- `LD H,L` (R160). -/
def execLdHL (s : State) : Result := .ofExcept (ldReg .h .l s)

/-- `LD H,(HL)` (R162). -/
def execLdHAtHl (s : State) : Result := .ofExcept (loadFrom .h (hl s) s)

/-- `LD H,A` (R160). -/
def execLdHA (s : State) : Result := .ofExcept (ldReg .h .a s)

/-- `LD L,B` (R160). -/
def execLdLB (s : State) : Result := .ofExcept (ldReg .l .b s)

/-- `LD L,C` (R160). -/
def execLdLC (s : State) : Result := .ofExcept (ldReg .l .c s)

/-- `LD L,D` (R160). -/
def execLdLD (s : State) : Result := .ofExcept (ldReg .l .d s)

/-- `LD L,E` (R160). -/
def execLdLE (s : State) : Result := .ofExcept (ldReg .l .e s)

/-- `LD L,H` (R160). -/
def execLdLH (s : State) : Result := .ofExcept (ldReg .l .h s)

/-- `LD L,L` (R160). -/
def execLdLL (s : State) : Result := .ofExcept (ldReg .l .l s)

/-- `LD L,(HL)` (R162). -/
def execLdLAtHl (s : State) : Result := .ofExcept (loadFrom .l (hl s) s)

/-- `LD L,A` (R160). -/
def execLdLA (s : State) : Result := .ofExcept (ldReg .l .a s)

/-- `LD (HL),B` (R163). -/
def execLdAtHlB (s : State) : Result := .ofExcept (writeByte s (hl s) (getReg .b s))

/-- `LD (HL),C` (R163). -/
def execLdAtHlC (s : State) : Result := .ofExcept (writeByte s (hl s) (getReg .c s))

/-- `LD (HL),D` (R163). -/
def execLdAtHlD (s : State) : Result := .ofExcept (writeByte s (hl s) (getReg .d s))

/-- `LD (HL),E` (R163). -/
def execLdAtHlE (s : State) : Result := .ofExcept (writeByte s (hl s) (getReg .e s))

/-- `LD (HL),H` (R163). -/
def execLdAtHlH (s : State) : Result := .ofExcept (writeByte s (hl s) (getReg .h s))

/-- `LD (HL),L` (R163). -/
def execLdAtHlL (s : State) : Result := .ofExcept (writeByte s (hl s) (getReg .l s))

/-- `LD (HL),A` (R163). -/
def execLdAtHlA (s : State) : Result := .ofExcept (writeByte s (hl s) (getReg .a s))

/-- `LD A,B` (R160). -/
def execLdAB (s : State) : Result := .ofExcept (ldReg .a .b s)

/-- `LD A,C` (R160). -/
def execLdAC (s : State) : Result := .ofExcept (ldReg .a .c s)

/-- `LD A,D` (R160). -/
def execLdAD (s : State) : Result := .ofExcept (ldReg .a .d s)

/-- `LD A,E` (R160). -/
def execLdAE (s : State) : Result := .ofExcept (ldReg .a .e s)

/-- `LD A,H` (R160). -/
def execLdAH (s : State) : Result := .ofExcept (ldReg .a .h s)

/-- `LD A,L` (R160). -/
def execLdAL (s : State) : Result := .ofExcept (ldReg .a .l s)

/-- `LD A,(HL)` (R162). -/
def execLdAAtHl (s : State) : Result := .ofExcept (loadFrom .a (hl s) s)

/-- `LD A,A` (R160). -/
def execLdAA (s : State) : Result := .ofExcept (ldReg .a .a s)

/-- `LDH (a8),A` (R172). -/
def execLdhAtA8A (lo : Byte) (s : State) : Result := .ofExcept (writeByte s (highPage lo) s.cpu.a)

/-- `LDH (C),A` (R174). -/
def execLdhAtCA (s : State) : Result := .ofExcept (writeByte s (highPage s.cpu.c) s.cpu.a)

/-- `LD (a16),A` (R170). -/
def execLdAtA16A (addr : Word) (s : State) : Result := .ofExcept (writeByte s addr s.cpu.a)

/-- `LDH A,(a8)` (R171). -/
def execLdhAAtA8 (lo : Byte) (s : State) : Result := .ofExcept (loadFrom .a (highPage lo) s)

/-- `LDH A,(C)` (R173). -/
def execLdhAAtC (s : State) : Result := .ofExcept (loadFrom .a (highPage s.cpu.c) s)

/-- `LD A,(a16)` (R169). -/
def execLdAAtA16 (addr : Word) (s : State) : Result := .ofExcept (loadFrom .a addr s)

end Sys2Proof.Machine
end

