-- ==== Sys2Proof/Machine/Rotate.lean ====
section
/-! DEFINITION. The meanings of the rotates and shifts (spec/44_rotate_shift_bit.md R270 to R290), one for each row of the opcode table,
over the shared operations of Ops.lean. -/

namespace Sys2Proof.Machine

/-- `RLCA` (R271). -/
def execRlca (s : State) : Result := .ofExcept (rotateAcc .rlc s)

/-- `RRCA` (R272). -/
def execRrca (s : State) : Result := .ofExcept (rotateAcc .rrc s)

/-- `RLA` (R273). -/
def execRla (s : State) : Result := .ofExcept (rotateAcc .rl s)

/-- `RRA` (R274). -/
def execRra (s : State) : Result := .ofExcept (rotateAcc .rr s)

/-- `RLC B` (R275). -/
def execRlcB (s : State) : Result := .ofExcept (rotateReg .rlc .b s)

/-- `RLC C` (R275). -/
def execRlcC (s : State) : Result := .ofExcept (rotateReg .rlc .c s)

/-- `RLC D` (R275). -/
def execRlcD (s : State) : Result := .ofExcept (rotateReg .rlc .d s)

/-- `RLC E` (R275). -/
def execRlcE (s : State) : Result := .ofExcept (rotateReg .rlc .e s)

/-- `RLC H` (R275). -/
def execRlcH (s : State) : Result := .ofExcept (rotateReg .rlc .h s)

/-- `RLC L` (R275). -/
def execRlcL (s : State) : Result := .ofExcept (rotateReg .rlc .l s)

/-- `RLC (HL)` (R276). -/
def execRlcAtHl (s : State) : Result := .ofExcept (rotateAtHl .rlc s)

/-- `RLC A` (R275). -/
def execRlcA (s : State) : Result := .ofExcept (rotateReg .rlc .a s)

/-- `RRC B` (R277). -/
def execRrcB (s : State) : Result := .ofExcept (rotateReg .rrc .b s)

/-- `RRC C` (R277). -/
def execRrcC (s : State) : Result := .ofExcept (rotateReg .rrc .c s)

/-- `RRC D` (R277). -/
def execRrcD (s : State) : Result := .ofExcept (rotateReg .rrc .d s)

/-- `RRC E` (R277). -/
def execRrcE (s : State) : Result := .ofExcept (rotateReg .rrc .e s)

/-- `RRC H` (R277). -/
def execRrcH (s : State) : Result := .ofExcept (rotateReg .rrc .h s)

/-- `RRC L` (R277). -/
def execRrcL (s : State) : Result := .ofExcept (rotateReg .rrc .l s)

/-- `RRC (HL)` (R278). -/
def execRrcAtHl (s : State) : Result := .ofExcept (rotateAtHl .rrc s)

/-- `RRC A` (R277). -/
def execRrcA (s : State) : Result := .ofExcept (rotateReg .rrc .a s)

/-- `RL B` (R279). -/
def execRlB (s : State) : Result := .ofExcept (rotateReg .rl .b s)

/-- `RL C` (R279). -/
def execRlC (s : State) : Result := .ofExcept (rotateReg .rl .c s)

/-- `RL D` (R279). -/
def execRlD (s : State) : Result := .ofExcept (rotateReg .rl .d s)

/-- `RL E` (R279). -/
def execRlE (s : State) : Result := .ofExcept (rotateReg .rl .e s)

/-- `RL H` (R279). -/
def execRlH (s : State) : Result := .ofExcept (rotateReg .rl .h s)

/-- `RL L` (R279). -/
def execRlL (s : State) : Result := .ofExcept (rotateReg .rl .l s)

/-- `RL (HL)` (R280). -/
def execRlAtHl (s : State) : Result := .ofExcept (rotateAtHl .rl s)

/-- `RL A` (R279). -/
def execRlA (s : State) : Result := .ofExcept (rotateReg .rl .a s)

/-- `RR B` (R281). -/
def execRrB (s : State) : Result := .ofExcept (rotateReg .rr .b s)

/-- `RR C` (R281). -/
def execRrC (s : State) : Result := .ofExcept (rotateReg .rr .c s)

/-- `RR D` (R281). -/
def execRrD (s : State) : Result := .ofExcept (rotateReg .rr .d s)

/-- `RR E` (R281). -/
def execRrE (s : State) : Result := .ofExcept (rotateReg .rr .e s)

/-- `RR H` (R281). -/
def execRrH (s : State) : Result := .ofExcept (rotateReg .rr .h s)

/-- `RR L` (R281). -/
def execRrL (s : State) : Result := .ofExcept (rotateReg .rr .l s)

/-- `RR (HL)` (R282). -/
def execRrAtHl (s : State) : Result := .ofExcept (rotateAtHl .rr s)

/-- `RR A` (R281). -/
def execRrA (s : State) : Result := .ofExcept (rotateReg .rr .a s)

/-- `SLA B` (R283). -/
def execSlaB (s : State) : Result := .ofExcept (rotateReg .sla .b s)

/-- `SLA C` (R283). -/
def execSlaC (s : State) : Result := .ofExcept (rotateReg .sla .c s)

/-- `SLA D` (R283). -/
def execSlaD (s : State) : Result := .ofExcept (rotateReg .sla .d s)

/-- `SLA E` (R283). -/
def execSlaE (s : State) : Result := .ofExcept (rotateReg .sla .e s)

/-- `SLA H` (R283). -/
def execSlaH (s : State) : Result := .ofExcept (rotateReg .sla .h s)

/-- `SLA L` (R283). -/
def execSlaL (s : State) : Result := .ofExcept (rotateReg .sla .l s)

/-- `SLA (HL)` (R284). -/
def execSlaAtHl (s : State) : Result := .ofExcept (rotateAtHl .sla s)

/-- `SLA A` (R283). -/
def execSlaA (s : State) : Result := .ofExcept (rotateReg .sla .a s)

/-- `SRA B` (R285). -/
def execSraB (s : State) : Result := .ofExcept (rotateReg .sra .b s)

/-- `SRA C` (R285). -/
def execSraC (s : State) : Result := .ofExcept (rotateReg .sra .c s)

/-- `SRA D` (R285). -/
def execSraD (s : State) : Result := .ofExcept (rotateReg .sra .d s)

/-- `SRA E` (R285). -/
def execSraE (s : State) : Result := .ofExcept (rotateReg .sra .e s)

/-- `SRA H` (R285). -/
def execSraH (s : State) : Result := .ofExcept (rotateReg .sra .h s)

/-- `SRA L` (R285). -/
def execSraL (s : State) : Result := .ofExcept (rotateReg .sra .l s)

/-- `SRA (HL)` (R286). -/
def execSraAtHl (s : State) : Result := .ofExcept (rotateAtHl .sra s)

/-- `SRA A` (R285). -/
def execSraA (s : State) : Result := .ofExcept (rotateReg .sra .a s)

/-- `SWAP B` (R287). -/
def execSwapB (s : State) : Result := .ofExcept (rotateReg .swap .b s)

/-- `SWAP C` (R287). -/
def execSwapC (s : State) : Result := .ofExcept (rotateReg .swap .c s)

/-- `SWAP D` (R287). -/
def execSwapD (s : State) : Result := .ofExcept (rotateReg .swap .d s)

/-- `SWAP E` (R287). -/
def execSwapE (s : State) : Result := .ofExcept (rotateReg .swap .e s)

/-- `SWAP H` (R287). -/
def execSwapH (s : State) : Result := .ofExcept (rotateReg .swap .h s)

/-- `SWAP L` (R287). -/
def execSwapL (s : State) : Result := .ofExcept (rotateReg .swap .l s)

/-- `SWAP (HL)` (R288). -/
def execSwapAtHl (s : State) : Result := .ofExcept (rotateAtHl .swap s)

/-- `SWAP A` (R287). -/
def execSwapA (s : State) : Result := .ofExcept (rotateReg .swap .a s)

/-- `SRL B` (R289). -/
def execSrlB (s : State) : Result := .ofExcept (rotateReg .srl .b s)

/-- `SRL C` (R289). -/
def execSrlC (s : State) : Result := .ofExcept (rotateReg .srl .c s)

/-- `SRL D` (R289). -/
def execSrlD (s : State) : Result := .ofExcept (rotateReg .srl .d s)

/-- `SRL E` (R289). -/
def execSrlE (s : State) : Result := .ofExcept (rotateReg .srl .e s)

/-- `SRL H` (R289). -/
def execSrlH (s : State) : Result := .ofExcept (rotateReg .srl .h s)

/-- `SRL L` (R289). -/
def execSrlL (s : State) : Result := .ofExcept (rotateReg .srl .l s)

/-- `SRL (HL)` (R290). -/
def execSrlAtHl (s : State) : Result := .ofExcept (rotateAtHl .srl s)

/-- `SRL A` (R289). -/
def execSrlA (s : State) : Result := .ofExcept (rotateReg .srl .a s)

end Sys2Proof.Machine
end

