-- ==== Sys2Proof/Machine/System.lean ====
section
/-! DEFINITION. The meanings of the system instructions (spec/46_system.md R320 to R326), one for each row of the opcode table,
over the shared operations of Ops.lean. -/

namespace Sys2Proof.Machine

/-- The instruction that second byte `op2` selects after `0xCB` (R325, by the second-byte map R131). -/
def runSecond (op2 : Byte) (s : State) : Except Fault State :=
  match Decode.fieldX op2, Decode.reg8 (Decode.fieldZ op2) with
  | 0, some r => rotateReg (Decode.rotOp (Decode.fieldY op2)) r s
  | 0, none => rotateAtHl (Decode.rotOp (Decode.fieldY op2)) s
  | 1, some r => bitReg (Decode.bitNo (Decode.fieldY op2)) r s
  | 1, none => bitAtHl (Decode.bitNo (Decode.fieldY op2)) s
  | 2, some r => resReg (Decode.bitNo (Decode.fieldY op2)) r s
  | 2, none => rewriteAtHl (fun v => clearBit v (Decode.bitNo (Decode.fieldY op2))) s
  | _, some r => setBitReg (Decode.bitNo (Decode.fieldY op2)) r s
  | _, none => rewriteAtHl (fun v => setBit v (Decode.bitNo (Decode.fieldY op2))) s

/-- `NOP` (R320). -/
def execNop (s : State) : Result := .ofExcept (nop s)

/-- `STOP` (R322). -/
def execStop (second : Byte) (s : State) : Result := .ofExcept (stop second s)

/-- `HALT` (R321). -/
def execHalt (s : State) : Result := .ofExcept (halt s)

/-- `PREFIX CB` (R325). -/
def execPrefixCb (op2 : Byte) (s : State) : Result := .ofExcept (runSecond op2 s)

/-- `ILLEGAL_D3` (R326). -/
def execIllegalD3 (s : State) : Result := .ofExcept (illegal .xD3 s)

/-- `ILLEGAL_DB` (R326). -/
def execIllegalDB (s : State) : Result := .ofExcept (illegal .xDB s)

/-- `ILLEGAL_DD` (R326). -/
def execIllegalDD (s : State) : Result := .ofExcept (illegal .xDD s)

/-- `ILLEGAL_E3` (R326). -/
def execIllegalE3 (s : State) : Result := .ofExcept (illegal .xE3 s)

/-- `ILLEGAL_E4` (R326). -/
def execIllegalE4 (s : State) : Result := .ofExcept (illegal .xE4 s)

/-- `ILLEGAL_EB` (R326). -/
def execIllegalEB (s : State) : Result := .ofExcept (illegal .xEB s)

/-- `ILLEGAL_EC` (R326). -/
def execIllegalEC (s : State) : Result := .ofExcept (illegal .xEC s)

/-- `ILLEGAL_ED` (R326). -/
def execIllegalED (s : State) : Result := .ofExcept (illegal .xED s)

/-- `DI` (R323). -/
def execDi (s : State) : Result := .ofExcept (di s)

/-- `ILLEGAL_F4` (R326). -/
def execIllegalF4 (s : State) : Result := .ofExcept (illegal .xF4 s)

/-- `EI` (R324). -/
def execEi (s : State) : Result := .ofExcept (ei s)

/-- `ILLEGAL_FC` (R326). -/
def execIllegalFC (s : State) : Result := .ofExcept (illegal .xFC s)

/-- `ILLEGAL_FD` (R326). -/
def execIllegalFD (s : State) : Result := .ofExcept (illegal .xFD s)

end Sys2Proof.Machine
end

