-- ==== Sys2Proof/Machine/Tick.lean ====
section
/-! DEFINITION. `Tick(n)`, the end-of-instruction bookkeeping (spec/60_exceptions.md R342): the picture
generator's cycles (spec/61_ppu.md R402, R406), the sound generator, `DIV`, the timer (R371) and the serial port
(R375). -/

namespace Sys2Proof.Machine

/-- The first two actions of R406: the line is finished, then the mode is 0. -/
def lineDone (s : State) : State := setPpu { (finishLine s).ppu with mode := .hblank } (finishLine s)

/-- The third action of R406: the block of a horizontal-blank transfer, if one is active (R99). -/
def hdmaAtMode0 (s : State) : Except Fault State := if s.bus.hdmaActive then hdmaBlock s else .ok s

/-- Enter mode 0 (R406), in the rule's order. -/
def enterMode0 (s : State) : Except Fault State := do
  let s1 ← hdmaAtMode0 (lineDone s)
  .ok (requestIf (statEnable s1 3) .stat s1)

/-- The entry to mode 3 in a visible line (R402). -/
def mode3At80 (s : State) : State := if s.ppu.lineCycle = 80 then enterMode3 s else s

/-- The entry to mode 0 in a visible line (R402). -/
def mode0AtEnd (s : State) : Except Fault State :=
  if s.ppu.lineCycle = 80 + s.ppu.mode3Len then enterMode0 s else .ok s

/-- The two mode changes inside a visible line (R402). -/
def lineEvents (s : State) : Except Fault State := if s.ppu.line < 144 then mode0AtEnd (mode3At80 s) else .ok s

/-- The event of line 153 (R402, R409). -/
def line153Event (s : State) : State :=
  if s.ppu.line = 153 ∧ s.ppu.lineCycle = s.params.ly153ZeroAt then compareLy (setPpu { s.ppu with ly := 0 } s) else s

/-- Line 0 begins (R402): `LY` is already 0, no compare. -/
def firstLine (s : State) : State := enterMode2 (setPpu { s.ppu with lineCycle := 0, line := 0 } s)

/-- `line` and `LY` move to the next line, and `Compare()` (R402). -/
def advanceLine (s : State) : State :=
  compareLy (setPpu { s.ppu with lineCycle := 0, line := s.ppu.line + 1, ly := BitVec.ofNat 8 (s.ppu.line + 1) } s)

/-- The mode entered at the start of a line other than 0 (R402). -/
def startLine (s : State) : State :=
  if s.ppu.line < 144 then enterMode2 s else if s.ppu.line = 144 then enterMode1 s else s

/-- The next line begins (R402). -/
def nextLine (s : State) : State := if s.ppu.line = 153 then firstLine s else startLine (advanceLine s)

/-- The end of the line, at cycle 456 (R402). -/
def lineEnd (s : State) : State := if s.ppu.lineCycle = 456 then nextLine s else s

/-- One cycle of R402. -/
def ppuCycle (s : State) : Except Fault State := do
  let s1 ← lineEvents (setPpu { s.ppu with lineCycle := s.ppu.lineCycle + 1 } s)
  .ok (lineEnd (line153Event s1))

/-- The repetition of R402. -/
def ppuCycles : Nat → State → Except Fault State
  | 0, s => .ok s
  | n + 1, s => do
    let s1 ← ppuCycle s
    ppuCycles n s1

/-- `PpuAdvance(m)` (R402): nothing while the display is disabled. -/
def ppuAdvance (m : Nat) (s : State) : Except Fault State := if lcdcBit s 7 then ppuCycles m s else .ok s

/-- `TAC_PERIOD` (R371). -/
def tacPeriod (tac : BitVec 3) : Nat :=
  match tac.toNat % 4 with
  | 0 => 1024 | 1 => 16 | 2 => 64 | _ => 256

/-- One increment of `TIMA`; the flag says whether an overflow has been seen (R371). -/
def timaStep (tma : Byte) (t : Byte × Bool) : Byte × Bool := if t.1 = 0xFF then (tma, true) else (t.1 + 1, t.2)

/-- `k` increments of `TIMA`. -/
def timaSteps (tma : Byte) : Nat → Byte × Bool → Byte × Bool
  | 0, t => t
  | k + 1, t => timaSteps tma k (timaStep tma t)

/-- `TimerAdvance(n)` (R371): the loop runs `(timer_ticks + n) div TAC_PERIOD` times. -/
def timerAdvance (n : Nat) (s : State) : State :=
  if s.timer.tac.getLsbD 2 then
    let total := s.timer.ticks + n
    let r := timaSteps s.timer.tma (total / tacPeriod s.timer.tac) (s.timer.tima, false)
    requestIf r.2 .timer { s with timer := { s.timer with ticks := total % tacPeriod s.timer.tac, tima := r.1 } }
  else s

/-- `DIV` in `Tick` (R342, R372). -/
def divAdvance (n : Nat) (s : State) : State :=
  { s with timer := { s.timer with divCounter := s.timer.divCounter + BitVec.ofNat 16 n } }

/-- `SERIAL_IN(i)` (R377). -/
def serialInBit (s : State) (i : Nat) : Bool :=
  match s.params.serialIn with
  | .bits first rest => first.getD i rest
  | .any => Config.serialIn i

/-- `k` bits shifted in (R375). -/
def serialShift (input : Nat → Bool) : Nat → Byte × Nat → Byte × Nat
  | 0, t => t
  | k + 1, t => serialShift input k ((t.1 <<< 1) ||| (if input t.2 then 1 else 0), t.2 + 1)

/-- `SerialAdvance(n)` (R375). -/
def serialAdvance (n : Nat) (s : State) : State :=
  if 0 < s.serial.timer then
    let whole := 8 * s.serial.period
    let left := s.serial.timer - n
    let k := (whole - left) / s.serial.period - (whole - s.serial.timer) / s.serial.period
    let r := serialShift (serialInBit s) k (s.serial.sb, s.serial.bitsIn)
    let s1 := { s with serial := { s.serial with timer := left, sb := r.1, bitsIn := r.2 } }
    if left = 0 then request .serial { s1 with serial := { s1.serial with scStart := false } } else s1
  else s

/-- The cycles the picture and sound generators see: `n >> speed_shift` (R342). -/
def generatorCycles (n : Nat) (s : State) : Nat := if s.cpu.speedShift then n / 2 else n

/-- `Tick(n)` (R342), in the rule's order. -/
def tick (n : Nat) (s : State) : Except Fault State := do
  let s1 ← ppuAdvance (generatorCycles n s) s
  let s2 := setApu (s1.apu.advance (generatorCycles n s)) s1
  .ok (serialAdvance n (timerAdvance n (divAdvance n s2)))

end Sys2Proof.Machine
end

