-- ==== Sys2Proof/Machine/Fetch.lean ====
section
/-! DEFINITION. The parts of a step (spec/60_exceptions.md R341) other than the meanings: the `ime_pending`
update, the interrupt check, the halted state, fetching an instruction's bytes, the end of the step; and storing
bytes where the fetch reads them. -/

namespace Sys2Proof.Machine

/-- Item 1, the `ime_pending` update (R343). -/
def updateIme (s : State) : State :=
  { s with cpu := { s.cpu with ime := s.cpu.ime || s.cpu.imePending == 1,
                               imePending := if s.cpu.imePending = 2 then 1 else 0 } }

/-- Item 2, the interrupt check (R347): the source to dispatch. -/
def dueInterrupt (s : State) : Option Source := if s.cpu.ime then firstPending (pending s) else none

/-- Item 3: halted with nothing pending (R350). -/
def idling (s : State) : Bool := s.cpu.runState == .halted && pending s == 0

/-- Item 3: the processor runs (R350; on a state that is not idling). -/
def wake (s : State) : State := { s with cpu := { s.cpu with runState := .running } }

/-- `n` operand bytes, each by `Fetch8()` (R13). -/
def fetchOperands : Nat → State → Except Fault (List Byte × State)
  | 0, s => .ok ([], s)
  | n + 1, s => do
    let (b, s1) ← fetch8 s
    let (bs, s2) ← fetchOperands n s1
    .ok (b :: bs, s2)

/-- Items 4 and 5: the opcode byte and the operand bytes its instruction has, decoded (R137). -/
def fetchInstr (s : State) : Except Fault (Instr × State) := do
  let (op, s1) ← fetchOpcode s
  let (bs, s2) ← fetchOperands (Decode.operandCount op) s1
  .ok (instrOf op (bs.getD 0 0) (bs.getD 1 0), s2)

/-- Item 6. -/
def finishStep (n : Nat) (s : State) : Except Fault State := do
  let s1 ← tick n s
  .ok { s1 with clock := s1.clock + n }

/-- A byte stored where a fetch from `a` reads it: the store behind `a`, without the gating or the effects of a
write by the processor. Addresses that have no store of bytes (I/O registers, unmapped space) are left alone. -/
def placeByte (a : Word) (b : Byte) (s : State) : State :=
  match region a with
  | .romFixed off => { s with cart := { s.cart with rom := s.cart.rom.write off b } }
  | .romBanked off =>
    { s with cart := { s.cart with
      rom := s.cart.rom.write ((romBank s * 0x4000 + off) % (s.cart.romBanks * 0x4000)) b } }
  | .vram off => { s with vram := s.vram.write (vramIndex s off) b }
  | .cartRam off => match window s off with
    | .ram o => { s with cram := s.cram.write o b }
    | .cell o => { s with cram := s.cram.write o (b &&& 0x0F) }
    | _ => s
  | .wramFixed off => { s with wram := s.wram.write off b }
  | .wramBanked off => { s with wram := s.wram.write (wramIndex s off) b }
  | .oam off => { s with oam := s.oam.write off b }
  | .nothing => s
  | .io _ => s
  | .hram off => { s with hram := s.hram.write off b }
  | .ie => { s with ieReg := b }

/-- Bytes stored at `a, a + 1, …`. -/
def placeBytes : List Byte → Word → State → State
  | [], _, s => s
  | b :: bs, a, s => placeBytes bs (a + 1) (placeByte a b s)

end Sys2Proof.Machine
end

