-- ==== Sys2Proof/Machine/StepBody.lean ====
section
/-! DEFINITION. The items of a step in their order (spec/60_exceptions.md R341). -/

namespace Sys2Proof.Machine

/-- Item 6 after an answer: `Tick(n); clock <- clock + n`. -/
def thenTick (n : Nat) (r : Result) : Result :=
  match r with
  | .next s => .ofExcept (finishStep n s)
  | .fault f => .fault f
  | .refused q => .refused q

/-- Items 4 to 6: one instruction. -/
def instructionStep (s : State) : Result :=
  match fetchInstr s with
  | .error f => .fault f
  | .ok (i, s1) => thenTick (cost i s1) (exec i s1)

/-- Items 2 to 6: the interrupt dispatch (20 cycles), an idle step (4 cycles), or one instruction. -/
def awakeStep (s : State) : Result :=
  match dueInterrupt s with
  | some n => thenTick 20 (.ofExcept (takeInterrupt n s))
  | none => if idling s then thenTick 4 (.next s) else instructionStep (wake s)

/-- Item 0, then item 1, then the rest: a faulted machine has no successor, a stopped one is unchanged (R352). -/
def stepBody (s : State) : Result :=
  match s.fault with
  | some f => .fault f
  | none => if s.cpu.runState = .stopped then .next s else awakeStep (updateIme s)

end Sys2Proof.Machine
end

