-- ==== Sys2Proof/Machine/Step.lean ====
section
/-! DEFINITION. One step of the machine (spec/60_exceptions.md R341), and placing an instruction where it
fetches the next one. -/

namespace Sys2Proof.Machine

/-- One step (R341). -/
def step (s : State) : Host.Outcome State Fault Refusal := stepBody s

/-- `s` with the instruction whose bytes are the low `nbits` bits of `w` (zeros above, up to the longest
instruction) stored at the program counter (log entry 6). -/
def State.withFetchWord (s : State) (nbits w : Nat) : State := placeBytes (tableBytes nbits w) s.cpu.pc s

end Sys2Proof.Machine
end

