-- ==== Sys2Proof/Machine/HostInterface.lean ====
section
/-! DEFINITION. What the host does to the machine between steps (spec/70_reset_and_hazards.md R580 to R582):
insertion, slices, buttons (spec/60_exceptions.md R381), the wall clock (spec/62_cartridge_mbc_rtc.md R480) and the
battery blob (R485). No instruction and no step calls these (log entry 15). -/

namespace Sys2Proof.Machine

/-- `insertCartridge` (R550, R552, R580): the state at the first step with the image inserted. `params` and `reset`
are the arguments of R9, by `COLOR_MODE`, and `wall` is `WALL_CLOCK(0)`; the defaults are `Params.default` and
`Reset.postBoot`. -/
def insertCartridge (image : List Byte) (params : Bool → Params) (reset : Bool → Nat → Reset) (wall : Nat) :
    Except Rejection State :=
  match Cart.ofImage image with
  | .ok c => .ok (State.launch c (params c.colorMode) (reset c.colorMode wall))
  | .error e => .error e

/-- The machine after an insertion is tried on `previous`: a rejected image changes nothing (R491, R582). -/
def afterInsert (previous : State) (image : List Byte) (params : Bool → Params) (reset : Bool → Nat → Reset)
    (wall : Nat) : State :=
  match insertCartridge image params reset wall with
  | .ok s => s
  | .error _ => previous

/-- The fault a rejected insertion reports (R360). -/
def Rejection.fault : Rejection → Option Fault
  | .unknownType code => some (.unknownCartridgeType code)
  | .illFormed => none

/-- The eight logical inputs (R380). -/
inductive Button where
  | right | left | up | down | a | b | select | start
  deriving DecidableEq, Repr

/-- The bit of a button in `buttons` (R380). -/
def Button.mask : Button → Byte
  | .right => 0x01 | .left => 0x02 | .up => 0x04 | .down => 0x08 | .a => 0x10 | .b => 0x20 | .select => 0x40
  | .start => 0x80

/-- `buttons` changed: the request of R380, and the end of `Stopped` when a selected line falls (R352). -/
def changeButtons (buttons : Byte) (s : State) : State :=
  let j := { s.joypad with buttons := buttons }
  let s1 := setJoypad j s
  if s.cpu.runState = .stopped ∧ Joypad.fell s.joypad j = true then
    { s1 with cpu := { s1.cpu with runState := .running } }
  else s1

/-- `buttonDown(b)` (R381). -/
def buttonDown (btn : Button) (s : State) : State := changeButtons (s.joypad.buttons ||| btn.mask) s

/-- `buttonUp(b)` (R381). -/
def buttonUp (btn : Button) (s : State) : State := changeButtons (s.joypad.buttons &&& ~~~btn.mask) s

/-- An input event of `HOST_INPUT` (R381): a button, pressed or released. -/
def applyEvent (e : Button × Bool) (s : State) : State := if e.2 then buttonDown e.1 s else buttonUp e.1 s

/-- The start of a slice at wall-clock time `now` (R480, R580): the clock first, then the slice's events. -/
def beginSlice (now : Nat) (events : List (Button × Bool)) (s : State) : State :=
  events.foldl (fun t e => applyEvent e t) (if s.cart.hasRtc then { s with rtc := s.rtc.resume now } else s)

/-- A step as the host records it (R360): a fault sets `fault` in the state before the step. -/
def recordStep (s : State) : State :=
  match step s with
  | .next t => t
  | .fault f => { s with fault := some f }
  | .refused _ => s

/-- The generator cycles a step took (R580): the sum over a slice is compared with the budget. -/
def spent (before after : State) : Nat := generatorCycles (after.clock - before.clock) after

/-- The slice goes on (R580): no fault is set, the machine is not stopped, and the budget is not reached. -/
def sliceOpen (budget used : Nat) (s : State) : Bool :=
  s.fault.isNone && s.cpu.runState != .stopped && decide (used < budget)

/-- The steps of a slice (R580), at most `fuel` of them: the state in which the slice ends, or `none` if it has not
ended by then. -/
def runSlice (budget : Nat) : Nat → Nat → State → Option State
  | 0, used, s => if sliceOpen budget used s then none else some s
  | fuel + 1, used, s =>
    if sliceOpen budget used s then runSlice budget fuel (used + spent s (recordStep s)) (recordStep s) else some s

/-- `advance(budget)` (R580), followed for at most `fuel` steps. -/
def advance (fuel budget now : Nat) (events : List (Button × Bool)) (s : State) : Option State :=
  runSlice budget fuel 0 (beginSlice now events s)

/-- `advance(budget)` takes `s` to `t` (R580). How many steps that needs depends on `CYCLES`, which may give a step
the cost 0: a slice whose sum never reaches the budget has no end, and then there is no `t`. -/
def Advances (budget now : Nat) (events : List (Button × Bool)) (s t : State) : Prop :=
  ∃ fuel, advance fuel budget now events s = some t

/-- A 32-bit word, least significant byte first (R485). -/
def littleEndian32 (n : Nat) : List Byte :=
  [BitVec.ofNat 8 n, BitVec.ofNat 8 (n / 0x100), BitVec.ofNat 8 (n / 0x10000), BitVec.ofNat 8 (n / 0x1000000)]

/-- Words 0 to 4 or 5 to 9 of the clock part of a blob (R485). -/
def RtcRegs.words (r : RtcRegs) : List Nat :=
  [r.sec, r.min, r.hour, r.day.toNat % 256, r.dayHigh.toNat]

/-- The clock part of a blob (R485). THE MODEL'S CHOICE (log entry 32): of a `rtc_last_wall` of `2^64` or more, the
timestamp holds the low 64 bits. -/
def Rtc.bytes (r : Rtc) : List Byte :=
  (r.live.words ++ r.latched.words ++ [r.lastWall % 2 ^ 32, r.lastWall / 2 ^ 32]).flatMap littleEndian32

/-- A byte of cartridge RAM as the blob holds it: a cell of `MBC2` has its high nibble `0xF` (R467). -/
def blobByte (kind : MbcKind) (b : Byte) : Byte := if kind = .mbc2 then 0xF0 ||| (b &&& 0x0F) else b

/-- `getBatteryBlob()` (R485, R581). -/
def getBatteryBlob (s : State) : List Byte :=
  (s.cram.bytesFrom 0 s.cart.ramSize).map (blobByte s.cart.kind) ++ (if s.cart.hasRtc then s.rtc.bytes else [])

/-- The length a blob must have (R485). -/
def blobLength (s : State) : Nat := s.cart.ramSize + (if s.cart.hasRtc then 48 else 0)

/-- Word `i` of a list of bytes, least significant byte first. -/
def wordAt (bs : List Byte) (i : Nat) : Nat :=
  (bs.getD (4 * i) 0).toNat + 0x100 * (bs.getD (4 * i + 1) 0).toNat + 0x10000 * (bs.getD (4 * i + 2) 0).toNat +
    0x1000000 * (bs.getD (4 * i + 3) 0).toNat

/-- Five words read into a copy of the clock registers; seconds, minutes and hours out of range leave the old
value (log entry 19). -/
def RtcRegs.load (old : RtcRegs) (bs : List Byte) (i : Nat) : RtcRegs where
  sec := if wordAt bs i < 60 then wordAt bs i else old.sec
  min := if wordAt bs (i + 1) < 60 then wordAt bs (i + 1) else old.min
  hour := if wordAt bs (i + 2) < 24 then wordAt bs (i + 2) else old.hour
  day := BitVec.ofNat 9 (wordAt bs (i + 3) % 256 + 256 * (wordAt bs (i + 4) % 2))
  halt := (BitVec.ofNat 8 (wordAt bs (i + 4))).getLsbD 6
  carry := (BitVec.ofNat 8 (wordAt bs (i + 4))).getLsbD 7

/-- The clock part of a blob read. -/
def Rtc.load (r : Rtc) (bs : List Byte) : Rtc :=
  { r with live := r.live.load bs 0, latched := r.latched.load bs 5, lastWall := wordAt bs 10 + 2 ^ 32 * wordAt bs 11 }

/-- A byte of a blob as cartridge RAM holds it: a cell of `MBC2` has 4 bits. -/
def cellOfBlob (kind : MbcKind) (b : Byte) : Byte := if kind = .mbc2 then b &&& 0x0F else b

/-- `loadBatteryBlob(b)` (R581, R582): nothing if the length is wrong. -/
def loadBatteryBlob (blob : List Byte) (s : State) : State :=
  if blob.length = blobLength s then
    { s with
      cram := Memory.ofBytes ((blob.take s.cart.ramSize).map (cellOfBlob s.cart.kind))
      rtc := if s.cart.hasRtc then s.rtc.load (blob.drop s.cart.ramSize) else s.rtc }
  else s

end Sys2Proof.Machine
end

