-- ==== Sys2Proof/Safety.lean ====
section
/-! DEFINITION. The terms the statements use: what an instruction leaves unchanged, the physical byte behind an
address, and the invariants every step keeps (the ranges spec/10_state.md, spec/61_ppu.md R401 and R413,
spec/63_apu.md and spec/62_cartridge_mbc_rtc.md give the state). -/

namespace Sys2Proof.Machine

/-- Everything but the processor is as before: memories, devices, requests, cartridge, clock. -/
def SameBeyondCpu (s t : State) : Prop := t = { s with cpu := t.cpu }

/-- Every 8-bit register outside the list is as before. -/
def RegsKept (written : List Reg8) (s t : State) : Prop := ∀ r, r ∉ written → getReg r t = getReg r s

/-- `IME`, its delay counter, the run state, `halt_repeat` and the speed are as before. -/
def ControlKept (s t : State) : Prop :=
  t.cpu.ime = s.cpu.ime ∧ t.cpu.imePending = s.cpu.imePending ∧ t.cpu.runState = s.cpu.runState ∧
    t.cpu.haltRepeat = s.cpu.haltRepeat ∧ t.cpu.speedShift = s.cpu.speedShift

/-- Registers outside the list, `SP`, `PC`, the control state and all beyond the processor are as before. -/
def Frame (written : List Reg8) (s t : State) : Prop :=
  RegsKept written s t ∧ t.cpu.sp = s.cpu.sp ∧ t.cpu.pc = s.cpu.pc ∧ ControlKept s t ∧ SameBeyondCpu s t

/-- The three operand forms of an ALU operation and the operand value `x` each has in `s` (R221 to R244). -/
def AluOperand (op : AluOp) (x : Byte) (f : Form) (s : State) : Prop :=
  (∃ r, f = .alu op r ∧ getReg r s = x) ∨ f = .aluImm op x ∨ (f = .aluAtHl op ∧ readByte s (hl s) = .ok x)

/-- The loads of one register from memory: the form, its destination and its address (R162, R165, R166, R169,
R171, R173). -/
def LoadForm (f : Form) (dst : Reg8) (addr : Word) (s : State) : Prop :=
  f = .ldFromHl dst ∧ addr = hl s ∨ f = .ldAFromBc ∧ dst = .a ∧ addr = bc s ∨ f = .ldAFromDe ∧ dst = .a ∧ addr = de s ∨
    f = .ldAFromAbs addr ∧ dst = .a ∨ (∃ lo, f = .ldhAFromImm lo ∧ dst = .a ∧ addr.toNat = 0xFF00 + lo.toNat) ∨
    f = .ldhAFromC ∧ dst = .a ∧ addr.toNat = 0xFF00 + s.cpu.c.toNat

/-- The stores of one byte: the form, the address and the byte stored (R163, R164, R167, R168, R170, R172, R174). -/
def StoreForm (f : Form) (addr : Word) (v : Byte) (s : State) : Prop :=
  (∃ r, f = .ldToHl r ∧ addr = hl s ∧ v = getReg r s) ∨ f = .ldToHlImm v ∧ addr = hl s ∨
    f = .ldToBcA ∧ addr = bc s ∧ v = s.cpu.a ∨ f = .ldToDeA ∧ addr = de s ∧ v = s.cpu.a ∨
    f = .ldToAbsA addr ∧ v = s.cpu.a ∨ (∃ lo, f = .ldhToImmA lo ∧ addr.toNat = 0xFF00 + lo.toNat ∧ v = s.cpu.a) ∨
    f = .ldhToCA ∧ addr.toNat = 0xFF00 + s.cpu.c.toNat ∧ v = s.cpu.a

/-- The pushes of a pair and the value pushed (R204, R205; `F` by R21). -/
def PushForm (f : Form) (v : Word) (s : State) : Prop :=
  f = .push .bc ∧ v = bc s ∨ f = .push .de ∧ v = de s ∨ f = .push .hl ∧ v = hl s ∨
    f = .pushAf ∧ hiByte v = s.cpu.a ∧
      loByte v = BitVec.ofBool s.cpu.zf ++ BitVec.ofBool s.cpu.nf ++ BitVec.ofBool s.cpu.hf ++ BitVec.ofBool s.cpu.cf ++ 0#4

/-- The number of an 8-bit register in fields `r` and `s` (R123). -/
def regNumber (r : Reg8) : Nat :=
  match r with
  | .b => 0 | .c => 1 | .d => 2 | .e => 3 | .h => 4 | .l => 5 | .a => 7

/-- The number of a register in field `rr` (R124). -/
def pairNumber (r : Reg16) : Nat :=
  match r with
  | .bc => 0 | .de => 1 | .hl => 2 | .sp => 3

/-- The number of a pair in field `qq` (R125). -/
def stackNumber (r : StackPair) : Nat :=
  match r with
  | .bc => 0 | .de => 1 | .hl => 2

/-- The number of a condition in field `cc` (R126). -/
def condNumber (cc : Cond) : Nat :=
  match cc with
  | .nz => 0 | .z => 1 | .nc => 2 | .c => 3

/-- The number of an ALU operation (R130). -/
def aluNumber (op : AluOp) : Nat :=
  match op with
  | .add => 0 | .adc => 1 | .sub => 2 | .sbc => 3 | .and => 4 | .xor => 5 | .or => 6 | .cp => 7

/-- The number of a rotate or shift (R131). -/
def rotNumber (op : RotOp) : Nat :=
  match op with
  | .rlc => 0 | .rrc => 1 | .rl => 2 | .rr => 3 | .sla => 4 | .sra => 5 | .swap => 6 | .srl => 7

/-- The `Encoding` and `Cycles` parts of an instruction rule (R14): the bytes, as numbers, and the standard cost. -/
def Row (f : Form) (bytes : List Nat) (cycles : Nat) : Prop :=
  encode f.toInstr = bytes.map (BitVec.ofNat 8) ∧ ∀ s : State, s.params.cycles = .standard → cost f.toInstr s = cycles

/-- `cond(cc)` of R300 on the flags `Z` and `Cf`. -/
def condHolds (cc : Cond) (z c : Bool) : Bool :=
  match cc with
  | .nz => !z | .z => z | .nc => !c | .c => c

/-- The same parts for a conditional instruction: its cost depends on its condition `cc`. -/
def CondRow (cc : Cond) (f : Form) (bytes : List Nat) (takenCycles otherCycles : Nat) : Prop :=
  encode f.toInstr = bytes.map (BitVec.ofNat 8) ∧ ∀ s : State, s.params.cycles = .standard →
    cost f.toInstr s = if condHolds cc s.cpu.zf s.cpu.cf then takenCycles else otherCycles

/-- The rows of the three operand forms of an ALU operation (R221 to R244). -/
def AluRows (op : AluOp) : Prop :=
  ∀ (src : Reg8) (imm : Byte),
    Row (.alu op src) [0x80 + 8 * aluNumber op + regNumber src] 4 ∧ Row (.aluAtHl op) [0x86 + 8 * aluNumber op] 8 ∧
      Row (.aluImm op imm) [0xC6 + 8 * aluNumber op, imm.toNat] 8

/-- The calls that are taken, and the address called (R306, R307, R310). -/
def CallForm (f : Form) (target : Word) (s : State) : Prop :=
  f = .call target ∨ (∃ cc, f = .callIf cc target ∧ condHolds cc s.cpu.zf s.cpu.cf = true) ∨
    ∃ t, f = .rst t ∧ target = restartAddress t

/-- Bit `i` of the result of a rotate or shift of `v` with carry-in `c` (R270, bit by bit). -/
def rotatedBit (op : RotOp) (v : Byte) (c : Bool) (i : Nat) : Bool :=
  match op with
  | .rlc => bit v ((i + 7) % 8)
  | .rrc => bit v ((i + 1) % 8)
  | .rl => if i = 0 then c else bit v (i - 1)
  | .rr => if i = 7 then c else bit v (i + 1)
  | .sla => if i = 0 then false else bit v (i - 1)
  | .sra => if i = 7 then bit v 7 else bit v (i + 1)
  | .swap => bit v ((i + 4) % 8)
  | .srl => if i = 7 then false else bit v (i + 1)

/-- The carry after a rotate or shift of `v` (R270): the bit moved out, 0 for `SWAP`. -/
def rotatedOut (op : RotOp) (v : Byte) : Bool :=
  match op with
  | .rlc => bit v 7 | .rl => bit v 7 | .sla => bit v 7
  | .rrc => bit v 0 | .rr => bit v 0 | .sra => bit v 0 | .srl => bit v 0
  | .swap => false

/-- The stores of plain bytes behind the address space. -/
inductive Store where
  | vram | wram | oam | hram | cram
  deriving DecidableEq, Repr

/-- The physical byte behind an address that is plain storage (R85, R87, R88, R89, R91, R471). -/
def plainCell (s : State) (a : Word) : Option (Store × Nat) :=
  match region a with
  | .vram off => some (.vram, vramIndex s off)
  | .cartRam off => match window s off with
    | .ram o => some (.cram, o)
    | _ => none
  | .wramFixed off => some (.wram, off)
  | .wramBanked off => some (.wram, wramIndex s off)
  | .oam off => some (.oam, off)
  | .hram off => some (.hram, off)
  | _ => none

/-- The store is hidden from the processor by the picture generator's mode (R85, R89). -/
def hidden (s : State) (x : Store) : Bool :=
  match x with
  | .vram => vramHidden s
  | .oam => oamHidden s
  | .wram => false
  | .hram => false
  | .cram => false

/-- What a read of `b` gives after `v` was stored in cell `c` of state `s`, when it gave `old` before: `v` if the
same physical byte is behind `b` and the store is not hidden (a hidden store drops the byte). -/
def afterStore (s : State) (c : Store × Nat) (v : Byte) (b : Word) (old : Except Fault Byte) : Except Fault Byte :=
  if plainCell s b = some c ∧ hidden s c.1 = false then .ok v else old

/-- The state differs from the state before only in its byte stores. -/
def OnlyStores (s t : State) : Prop :=
  t = { s with vram := t.vram, wram := t.wram, oam := t.oam, hram := t.hram, cram := t.cram }

/-- Every byte store is in canonical form. -/
def MemoryInv (s : State) : Prop :=
  s.vram.wf = true ∧ s.wram.wf = true ∧ s.oam.wf = true ∧ s.hram.wf = true ∧ s.cram.wf = true ∧
    s.cart.rom.wf = true ∧ s.apu.waveRam.wf = true ∧ s.ppu.bgPal.wf = true ∧ s.ppu.objPal.wf = true

/-- A pending enable exists only while interrupts are disabled (R324, R343). -/
def EnableInv (s : State) : Prop := s.cpu.imePending ≠ 0 → s.cpu.ime = false

/-- In monochrome mode the color-mode state never leaves its reset value (R31, R38, R96, R99). -/
def MonoInv (s : State) : Prop :=
  s.cart.colorMode = false →
    s.cpu.speedShift = false ∧ s.key1Armed = false ∧ s.bus.vbank = false ∧ s.bus.svbk = 0 ∧ s.bus.hdmaActive = false

/-- The mode by line and cycle (R413 b, d). -/
def modeAt (p : Ppu) : PpuMode :=
  if 144 ≤ p.line then .vblank
  else if p.lineCycle < 80 then .oamScan
  else if p.lineCycle < 80 + p.mode3Len then .transfer
  else .hblank

/-- `LY` by line and cycle (R401, R409). -/
def lyAt (zeroAt : Nat) (p : Ppu) : Nat := if p.line = 153 ∧ zeroAt ≤ p.lineCycle then 0 else p.line

/-- The scanline engine: while the display is on, line, cycle, mode and `LY` are related as R409 and R413 say, and
while it is off all are 0 (R412). `LY153_ZERO_AT` is in its range (R409). -/
def PpuInv (s : State) : Prop :=
  1 ≤ s.params.ly153ZeroAt ∧ s.params.ly153ZeroAt ≤ 455 ∧
    (if lcdcBit s 7 then
      s.ppu.line ≤ 153 ∧ s.ppu.lineCycle ≤ 455 ∧ s.ppu.mode = modeAt s.ppu ∧
        s.ppu.ly.toNat = lyAt s.params.ly153ZeroAt s.ppu
     else s.ppu.line = 0 ∧ s.ppu.lineCycle = 0 ∧ s.ppu.mode = .hblank ∧ s.ppu.ly = 0)

/-- The buffers have the screen's size and the sprite list its bound (R401). -/
def ScreenInv (s : State) : Prop :=
  s.ppu.lineBuf.length = 160 ∧ s.ppu.frame.length = 144 ∧ (∀ row ∈ s.ppu.frame, row.length = 160) ∧
    s.ppu.spriteList.length ≤ 10 ∧ s.ppu.renderedX ≤ 160

/-- The counters of the sound generator are in their ranges (R501 to R510). -/
def SoundInv (a : Apu) : Prop :=
  a.seqCounter < 8192 ∧ a.seqPos < 8 ∧
    0 < a.ch1.timer ∧ 0 < a.ch2.timer ∧ 0 < a.ch3.timer ∧ 0 < a.ch4.timer ∧ 0 < a.sweep.timer ∧
    a.ch1.dutyPos < 8 ∧ a.ch2.dutyPos < 8 ∧ a.ch3.pos < 32 ∧
    a.ch1.len ≤ 64 ∧ a.ch2.len ≤ 64 ∧ a.ch3.len ≤ 256 ∧ a.ch4.len ≤ 64

/-- `timer_ticks` is below the period while the timer is enabled (R37). -/
def TimerInv (s : State) : Prop := s.timer.tac.getLsbD 2 = true → s.timer.ticks < tacPeriod s.timer.tac

/-- A serial transfer is in progress exactly while its counter runs with the internal clock (R375). -/
def SerialInv (s : State) : Prop :=
  (s.serial.period = 512 ∨ s.serial.period = 16) ∧ s.serial.timer ≤ 8 * s.serial.period ∧
    (0 < s.serial.timer ↔ (s.serial.scStart = true ∧ s.serial.scInternal = true))

/-- One copy of the clock registers is in range (R476). -/
def RtcRegs.inRange (r : RtcRegs) : Prop := r.sec < 60 ∧ r.min < 60 ∧ r.hour < 24

/-- The clock is in range (R476, R480). -/
def RtcInv (s : State) : Prop := s.rtc.live.inRange ∧ s.rtc.latched.inRange

/-- The registers of the bank controller fit their widths (R463, R464, R466 to R470). -/
def MbcInv (s : State) : Prop :=
  match s.cart.kind with
  | .none => True
  | .mbc1 => s.mbc.romLo.toNat < 32
  | .mbc2 => s.mbc.romLo.toNat < 16
  | .mbc3 => s.mbc.romLo.toNat < 128
  | .mbc5 => True
  | .mbc5r => s.mbc.ramSelect.toNat < 8

/-- The low 4 bits of `hdma_src` and of `hdma_dst` are zero (R99). -/
def TransferInv (s : State) : Prop := s.bus.hdmaSrc.toNat % 16 = 0 ∧ s.bus.hdmaDst.toNat % 16 = 0

/-- All of them: a state a safe run can be in. -/
def SafeState (s : State) : Prop :=
  MemoryInv s ∧ EnableInv s ∧ MonoInv s ∧ PpuInv s ∧ ScreenInv s ∧ SoundInv s.apu ∧ TimerInv s ∧ SerialInv s ∧
    RtcInv s ∧ MbcInv s ∧ TransferInv s

end Sys2Proof.Machine
end

