-- ==== Sys2Proof/WellFormed.lean ====
section
/-! DEFINITION. Which terms of `Instr` are instructions of spec/30_encoding.md: three checks, each of which
refuses some term (the smoke tests of Sys2Proof/Tests/Slice0.lean show one for each). -/

namespace Sys2Proof

/-- R139: `0x10` followed by any byte other than `0x00` is a reserved encoding. -/
def Instr.stopOperandDefined : Instr → Bool
  | .stop second => second == 0
  | _ => true

/-- R134, R325: `0xCB` is not an instruction on its own; the pair is the instruction of the second-byte map, so
the table's prefix row is a second spelling of it. -/
def Instr.notPrefixRow : Instr → Bool
  | .prefixCb _ => false
  | _ => true

/-- R132: the eleven bytes select no instruction. -/
def Instr.selectsInstruction (i : Instr) : Bool :=
  !([Instr.illegalD3, .illegalDB, .illegalDD, .illegalE3, .illegalE4, .illegalEB, .illegalEC, .illegalED,
    .illegalF4, .illegalFC, .illegalFD].contains i)

/-- An instruction of the hardware in its one spelling. -/
def Instr.wellFormed (i : Instr) : Bool :=
  i.stopOperandDefined && i.notPrefixRow && i.selectsInstruction

end Sys2Proof
end

