-- ==== Sys2Proof/Certificates/Slice0/Obligations.lean ====
section
/-! DEFINITION. The statements for the provers, from the numbered rules of spec/. -/

open Sys2Proof Sys2Proof.Machine

/-! ### Encoding -/

/-- Words written out from R121, R123 to R126, R130, R131 and R139, one or more for each family. -/
def Obligations.DecodedWords : Prop :=
  decode [0x41#8] = .ok (.ldBC, []) ∧
  decode [0x16#8, 0x9C#8] = .ok (.ldDD8 0x9C#8, []) ∧
  decode [0x21#8, 0x5B#8, 0x3A#8] = .ok (.ldHlD16 0x3A5B#16, []) ∧
  decode [0xF5#8, 0x00#8] = .ok (.pushAf, [0x00#8]) ∧
  decode [0x8E#8] = .ok (.adcAAtHl, []) ∧
  decode [0x39#8] = .ok (.addHlSp, []) ∧
  decode [0xCB#8, 0x37#8] = .ok (.swapA, []) ∧
  decode [0xCB#8, 0x9E#8] = .ok (.res3AtHl, []) ∧
  decode [0x28#8, 0xFA#8] = .ok (.jrZE8 0xFA#8, []) ∧
  decode [0xC4#8, 0x34#8, 0x12#8] = .ok (.callNzA16 0x1234#16, []) ∧
  decode [0x76#8] = .ok (.halt, []) ∧
  decode [0x10#8, 0x00#8] = .ok (.stop 0x00#8, []) ∧
  decode [0xD3#8] = .ok (.illegalD3, [])

/-- Decoding the encoding of an instruction gives it back, with every operand at every value, whatever bytes
follow. The prefix row is left out: its words are the second-byte instructions' (R134). -/
def Obligations.DecodeOfEncode : Prop :=
  ∀ (i : Instr) (rest : List Byte), i.notPrefixRow = true → decode (encode i ++ rest) = .ok (i, rest)

/-- Each byte sequence has one meaning: encoding what was decoded, followed by what was left, is the sequence. -/
def Obligations.EncodeOfDecode : Prop :=
  ∀ (bs : List Byte) (i : Instr) (rest : List Byte), decode bs = .ok (i, rest) →
    encode i ++ rest = bs ∧ i.notPrefixRow = true

/-- R120: an instruction is 1, 2 or 3 bytes long, the length is a function of the opcode byte alone, and is 2
after the prefix byte. -/
def Obligations.LengthByOpcode : Prop :=
  ∃ len : Byte → Nat, len 0xCB#8 = 2 ∧ ∀ op, 1 ≤ len op ∧ len op ≤ 3 ∧
    ∀ rest : List Byte,
      (rest.length + 1 < len op → decode (op :: rest) = .error (.truncated op)) ∧
      (len op ≤ rest.length + 1 →
        ∃ i, decode (op :: rest) = .ok (i, rest.drop (len op - 1)) ∧ (encode i).length = len op)

/-! ### The step and interrupts -/

/-- R341, R30: when nothing is due and the bytes at the program counter are the bytes of instruction `i`, a step runs
`exec i` with `PC` past them, then `Tick` with the instruction's cost; a fault of `exec` or of `Tick` is the step's
fault. With `halt_repeat` set, the first byte is read without moving `PC`, and the bit is cleared. -/
def Obligations.StepRunsInstruction : Prop :=
  ∀ (s : State) (i : Instr), s.fault = none → s.cpu.runState ≠ .stopped →
    dueInterrupt (updateIme s) = none → idling (updateIme s) = false → i.notPrefixRow = true →
    let w := wake (updateIme s)
    let first : Nat := if s.cpu.haltRepeat then 1 else 0
    (∀ k, k < (encode i).length → readByte w (s.cpu.pc + BitVec.ofNat 16 (k - first)) = .ok ((encode i).getD k 0)) →
    let u := { w with cpu := { w.cpu with
      pc := s.cpu.pc + BitVec.ofNat 16 ((encode i).length - first), haltRepeat := false } }
    (∀ t t', exec i u = .next t → tick (cost i u) t = .ok t' →
      step s = .next { t' with clock := t'.clock + cost i u }) ∧
    (∀ f, exec i u = .fault f → step s = .fault f) ∧
    (∀ t f, exec i u = .next t → tick (cost i u) t = .error f → step s = .fault f)

/-- R347, R348: with `IME` set and a request enabled and pending, the step takes the interrupt of the lowest set
bit, whose vector is `0x0040 + 8*n`, and passes 20 cycles to `Tick`; a fault of its push or of `Tick` is the step's. -/
def Obligations.StepDispatches : Prop :=
  ∀ s : State, s.fault = none → s.cpu.runState ≠ .stopped → (updateIme s).cpu.ime = true → pending s ≠ 0 →
    ∃ n : Source, (pending s).getLsbD n.number = true ∧
      (∀ m : Source, m.number < n.number → (pending s).getLsbD m.number = false) ∧
      n.vector.toNat = 0x40 + 8 * n.number ∧
      (∀ t t', takeInterrupt n (updateIme s) = .ok t → tick 20 t = .ok t' →
        step s = .next { t' with clock := t'.clock + 20 }) ∧
      (∀ f, takeInterrupt n (updateIme s) = .error f → step s = .fault f) ∧
      (∀ t f, takeInterrupt n (updateIme s) = .ok t → tick 20 t = .error f → step s = .fault f)

/-- R347: what taking interrupt `n` does, with the stack in plain storage: `IME` and the request bit are cleared,
`halt_repeat` too, a halted processor runs, `PC` is pushed and becomes the vector; no register, no flag, not `IE`
and no other request changes. -/
def Obligations.TakeInterruptEffect : Prop :=
  ∀ (n : Source) (s : State) (c1 c2 : Store × Nat), MemoryInv s →
    plainCell s (s.cpu.sp - 1) = some c1 → plainCell s (s.cpu.sp - 2) = some c2 →
    ∃ t, takeInterrupt n s = .ok t ∧ t.cpu.pc = n.vector ∧ t.cpu.sp = s.cpu.sp - 2 ∧
      t.cpu.ime = false ∧ t.cpu.haltRepeat = false ∧
      t.cpu.runState = (if s.cpu.runState = .halted then .running else s.cpu.runState) ∧
      t.cpu.imePending = s.cpu.imePending ∧ t.cpu.speedShift = s.cpu.speedShift ∧
      RegsKept [] s t ∧ t.cpu.flags = s.cpu.flags ∧
      (∀ m : Source, t.ifReg.getLsbD m.number = (s.ifReg.getLsbD m.number && m != n)) ∧
      OnlyStores { s with cpu := t.cpu, ifReg := t.ifReg } t ∧
      ∀ b : Word, b ≠ 0xFF0F#16 → readByte t b =
        afterStore s c2 (loByte s.cpu.pc) b (afterStore s c1 (hiByte s.cpu.pc) b (readByte s b))

/-- R32, R352 and R350: a state with a fault has no successor, a stopped machine is left unchanged by a step; halted
with nothing enabled and pending, a step is `Tick(4)` and nothing else (a fault of that `Tick` is the step's); with a
request pending and `IME` clear, the step is that of the running machine. -/
def Obligations.StepStoppedOrHalted : Prop :=
  ∀ s : State, (∀ f, s.fault = some f → step s = .fault f) ∧
    (s.fault = none → s.cpu.runState = .stopped → step s = .next s) ∧
    (s.fault = none → s.cpu.runState = .halted →
      (pending s = 0 → (∀ t, tick 4 (updateIme s) = .ok t → step s = .next { t with clock := t.clock + 4 }) ∧
        ∀ f, tick 4 (updateIme s) = .error f → step s = .fault f) ∧
      (pending s ≠ 0 → (updateIme s).cpu.ime = false →
        step s = step { s with cpu := { s.cpu with runState := .running } }))

/-- R30: when `halt_repeat` is set, the opcode fetch does not advance `PC`, and clears it; otherwise the fetch
advances `PC` by one, modulo `2^16`. An opcode byte that cannot be read is the fault of that read. -/
def Obligations.HaltRepeatFetch : Prop :=
  (∀ (s : State) (e : Fault), readByte s s.cpu.pc = .error e → instructionStep s = .fault e) ∧
  ∀ (s : State) (op : Byte), readByte s s.cpu.pc = .ok op →
    (s.cpu.haltRepeat = true → fetchOpcode s = .ok (op, { s with cpu := { s.cpu with haltRepeat := false } })) ∧
    (s.cpu.haltRepeat = false → ∃ t, fetchOpcode s = .ok (op, t) ∧ t.cpu.pc.toNat = (s.cpu.pc.toNat + 1) % 65536 ∧
      t = { s with cpu := { s.cpu with pc := t.cpu.pc } })

/-- R323, R324, R343, R320: `EI` with no enable in force or pending sets the counter to 2, with one it does
nothing; the first update after it leaves `IME` clear, the second sets it; `DI` clears both; `NOP` does nothing. -/
def Obligations.EnableDelay : Prop :=
  ∀ s : State,
    Row .ei [0xFB] 4 ∧ Row .di [0xF3] 4 ∧ Row .nop [0x00] 4 ∧
    (s.cpu.ime = false → s.cpu.imePending = 0 →
      exec .ei s = .next { s with cpu := { s.cpu with imePending := 2 } }) ∧
    (s.cpu.ime = true ∨ s.cpu.imePending ≠ 0 → exec .ei s = .next s) ∧
    (s.cpu.imePending = 2 → updateIme s = { s with cpu := { s.cpu with imePending := 1 } }) ∧
    (s.cpu.imePending = 1 → updateIme s = { s with cpu := { s.cpu with ime := true, imePending := 0 } }) ∧
    (s.cpu.imePending = 0 → updateIme s = s) ∧
    exec .di s = .next { s with cpu := { s.cpu with ime := false, imePending := 0 } } ∧
    exec .nop s = .next s

/-- R326: each of the eleven unassigned first bytes decodes to its row, and the row's meaning is the fault
`IllegalOpcode` with that byte, in every state. -/
def Obligations.IllegalOpcodesFault : Prop :=
  ∀ (op : Byte), op ∈ [0xD3#8, 0xDB#8, 0xDD#8, 0xE3#8, 0xE4#8, 0xEB#8, 0xEC#8, 0xED#8, 0xF4#8, 0xFC#8, 0xFD#8] →
    ∀ (rest : List Byte) (s : State), ∃ i, decode (op :: rest) = .ok (i, rest) ∧ exec i s = .fault (.illegalOpcode op)

/-- R321, R322: `HALT` halts when no enabled request is pending, whatever `IME`; otherwise, by `HALT_PENDING`, it sets
`halt_repeat` or does nothing. `STOP` with a second byte other than `0x00` is a fault; in color mode with the switch
armed it toggles the speed and disarms; otherwise the machine is stopped. A step that runs it at an armed switch passes
its 4 cycles to `DIV`, the timer and the serial port, and 4 or 2 to the picture and the sound generator by the new speed. -/
def Obligations.HaltAndStop : Prop :=
  ∀ s : State,
    Row .halt [0x76] 4 ∧ Row (.stop 0x00#8) [0x10, 0x00] 4 ∧
    (s.ieReg.extractLsb' 0 5 &&& s.ifReg = 0 → exec .halt s = .next { s with cpu := { s.cpu with runState := .halted } }) ∧
    (s.ieReg.extractLsb' 0 5 &&& s.ifReg ≠ 0 →
      (s.params.haltPending = .repeatByte → exec .halt s = .next { s with cpu := { s.cpu with haltRepeat := true } }) ∧
      (s.params.haltPending = .fallthrough → exec .halt s = .next s)) ∧
    (∀ second : Byte, second ≠ 0x00#8 → exec (.stop second) s = .fault (.reservedStopOperand second)) ∧
    (s.cart.colorMode = true → s.key1Armed = true → exec (.stop 0x00#8) s =
      .next { s with key1Armed := false, cpu := { s.cpu with speedShift := !s.cpu.speedShift } }) ∧
    (s.cart.colorMode = false ∨ s.key1Armed = false → exec (.stop 0x00#8) s =
      .next { s with cpu := { s.cpu with runState := .stopped } }) ∧
    (s.cart.colorMode = true → s.key1Armed = true → s.params.cycles = .standard →
      s.fault = none → s.cpu.runState = .running → s.cpu.haltRepeat = false → dueInterrupt (updateIme s) = none →
      readByte s s.cpu.pc = .ok 0x10 → readByte s (s.cpu.pc + 1) = .ok 0x00 →
      let u := { updateIme s with key1Armed := false, cpu := { (updateIme s).cpu with
        pc := s.cpu.pc + 2, speedShift := !s.cpu.speedShift } }
      let m : Nat := if s.cpu.speedShift then 4 else 2
      (∀ p, ppuAdvance m u = .ok p → step s =
        .next { serialAdvance 4 (timerAdvance 4 (divAdvance 4 { p with apu := p.apu.advance m })) with
          clock := s.clock + 4 }) ∧
      ∀ e, ppuAdvance m u = .error e → step s = .fault e)

/-- R325: the prefix row runs the instruction that the second byte selects in the second-byte map. -/
def Obligations.PrefixRunsSecond : Prop :=
  ∀ (op2 : Byte) (s : State), ∃ i, decode [0xCB#8, op2] = .ok (i, []) ∧ exec (.prefixCb op2) s = exec i s ∧
    encode (.prefixCb op2) = [0xCB#8, op2] ∧ (s.params.cycles = .standard → cost (.prefixCb op2) s = cost i s)

/-! ### Loads and the stack -/

/-- R160, R161: a register load from a register or an immediate sets its destination and nothing else. -/
def Obligations.LoadRegister : Prop :=
  ∀ (dst src : Reg8) (imm : Byte) (s : State),
    Row (.ldReg dst src) [0x40 + 8 * regNumber dst + regNumber src] 4 ∧
    Row (.ldImm dst imm) [0x06 + 8 * regNumber dst, imm.toNat] 8 ∧
    (∃ t, exec (Form.ldReg dst src).toInstr s = .next t ∧ getReg dst t = getReg src s ∧ Frame [dst] s t ∧
      t.cpu.flags = s.cpu.flags) ∧
    (∃ t, exec (Form.ldImm dst imm).toInstr s = .next t ∧ getReg dst t = imm ∧ Frame [dst] s t ∧
      t.cpu.flags = s.cpu.flags)

/-- R162, R165, R166, R169, R171, R173 and R176, R178: a load takes the byte the bus reads at its address; the two
stepping loads then move `HL` by one, modulo `2^16`; nothing else changes. An unreadable address is the fault. -/
def Obligations.LoadFromMemory : Prop :=
  (∀ (dst : Reg8) (addr : Word) (lo : Byte),
    Row (.ldFromHl dst) [0x46 + 8 * regNumber dst] 8 ∧ Row .ldAFromBc [0x0A] 8 ∧ Row .ldAFromDe [0x1A] 8 ∧
    Row (.ldAFromAbs addr) [0xFA, addr.toNat % 256, addr.toNat / 256] 16 ∧ Row (.ldhAFromImm lo) [0xF0, lo.toNat] 12 ∧
    Row .ldhAFromC [0xF2] 8 ∧ Row .ldAFromHlInc [0x2A] 8 ∧ Row .ldAFromHlDec [0x3A] 8) ∧
  (∀ (f : Form) (dst : Reg8) (addr : Word) (s : State), LoadForm f dst addr s →
    (∀ v, readByte s addr = .ok v → ∃ t, exec f.toInstr s = .next t ∧ getReg dst t = v ∧ Frame [dst] s t ∧
      t.cpu.flags = s.cpu.flags) ∧
    (∀ e, readByte s addr = .error e → exec f.toInstr s = .fault e)) ∧
  (∀ s : State,
    (∀ v, readByte s (hl s) = .ok v →
      (∃ t, exec .ldAAtHlInc s = .next t ∧ t.cpu.a = v ∧ (hl t).toNat = ((hl s).toNat + 1) % 65536 ∧
        Frame [.a, .h, .l] s t ∧ t.cpu.flags = s.cpu.flags) ∧
      (∃ t, exec .ldAAtHlDec s = .next t ∧ t.cpu.a = v ∧ (hl t).toNat = ((hl s).toNat + 65535) % 65536 ∧
        Frame [.a, .h, .l] s t ∧ t.cpu.flags = s.cpu.flags)) ∧
    (∀ e, readByte s (hl s) = .error e → exec .ldAAtHlInc s = .fault e ∧ exec .ldAAtHlDec s = .fault e))

/-- R163, R164, R167, R168, R170, R172, R174 and R175, R177: a store writes its byte at its address through the bus
and changes nothing of the processor; the two stepping stores then move `HL` by one, modulo `2^16`. -/
def Obligations.StoreToMemory : Prop :=
  (∀ (src : Reg8) (addr : Word) (v : Byte),
    Row (.ldToHl src) [0x70 + regNumber src] 8 ∧ Row (.ldToHlImm v) [0x36, v.toNat] 12 ∧ Row .ldToBcA [0x02] 8 ∧
    Row .ldToDeA [0x12] 8 ∧ Row (.ldToAbsA addr) [0xEA, addr.toNat % 256, addr.toNat / 256] 16 ∧
    Row (.ldhToImmA v) [0xE0, v.toNat] 12 ∧ Row .ldhToCA [0xE2] 8 ∧ Row .ldToHlIncA [0x22] 8 ∧
    Row .ldToHlDecA [0x32] 8) ∧
  (∀ (f : Form) (addr : Word) (v : Byte) (s : State), StoreForm f addr v s →
    (∀ t, writeByte s addr v = .ok t → exec f.toInstr s = .next t ∧ t.cpu = s.cpu) ∧
    (∀ e, writeByte s addr v = .error e → exec f.toInstr s = .fault e)) ∧
  (∀ s u : State, writeByte s (hl s) s.cpu.a = .ok u →
    (∃ t, exec .ldAtHlIncA s = .next t ∧ (hl t).toNat = ((hl s).toNat + 1) % 65536 ∧
      t = { u with cpu := { s.cpu with h := t.cpu.h, l := t.cpu.l } }) ∧
    (∃ t, exec .ldAtHlDecA s = .next t ∧ (hl t).toNat = ((hl s).toNat + 65535) % 65536 ∧
      t = { u with cpu := { s.cpu with h := t.cpu.h, l := t.cpu.l } })) ∧
  (∀ (s : State) (e : Fault), writeByte s (hl s) s.cpu.a = .error e →
    exec .ldAtHlIncA s = .fault e ∧ exec .ldAtHlDecA s = .fault e)

/-- R85, R87, R88, R89, R91, R471: a byte written to plain storage reads back at every address behind which the same
physical byte stands, unless the picture generator hides the store, which drops the byte; every other address reads
as before, and nothing but the stores changes. -/
def Obligations.PlainStoreEffect : Prop :=
  ∀ (s : State) (a : Word) (v : Byte) (c : Store × Nat), MemoryInv s → plainCell s a = some c →
    ∃ t, writeByte s a v = .ok t ∧ OnlyStores s t ∧ ∀ b, readByte t b = afterStore s c v b (readByte s b)

/-- R200, R202: `LD rr,d16` and `LD SP,HL` set their destination and nothing else. -/
def Obligations.LoadPair : Prop :=
  ∀ (r : Reg16) (imm : Word) (s : State),
    Row (.ldPair r imm) [0x01 + 16 * pairNumber r, imm.toNat % 256, imm.toNat / 256] 12 ∧ Row .ldSpHl [0xF9] 8 ∧
    exec (.ldBcD16 imm) s = .next { s with cpu := { s.cpu with b := hiByte imm, c := loByte imm } } ∧
    exec (.ldDeD16 imm) s = .next { s with cpu := { s.cpu with d := hiByte imm, e := loByte imm } } ∧
    exec (.ldHlD16 imm) s = .next { s with cpu := { s.cpu with h := hiByte imm, l := loByte imm } } ∧
    exec (.ldSpD16 imm) s = .next { s with cpu := { s.cpu with sp := imm } } ∧
    exec .ldSpHl s = .next { s with cpu := { s.cpu with sp := hl s } } ∧
    imm.toNat = 256 * (hiByte imm).toNat + (loByte imm).toNat ∧
    (hl s).toNat = 256 * s.cpu.h.toNat + s.cpu.l.toNat

/-- R201: `LD (a16),SP` writes the low byte at the address, then the high byte at the next, modulo `2^16`; the
processor is unchanged. -/
def Obligations.StoreStackPointer : Prop :=
  ∀ (addr : Word) (s s1 s2 : State),
    writeByte s addr (loByte s.cpu.sp) = .ok s1 → writeByte s1 (addr + 1) (hiByte s.cpu.sp) = .ok s2 →
    exec (.ldAtA16Sp addr) s = .next s2 ∧ s2.cpu = s.cpu ∧
      Row (.ldToAbsSp addr) [0x08, addr.toNat % 256, addr.toNat / 256] 20

/-- R203, R263, R264: `SP` plus the signed offset, with the flags of the unsigned addition of the low byte. -/
def Obligations.StackPointerOffset : Prop :=
  ∀ (e : Byte) (s : State),
    let se : Int := if e.toNat < 128 then (e.toNat : Int) else (e.toNat : Int) - 256
    let r : Int := ((s.cpu.sp.toNat : Int) + se) % 65536
    let f : Flags := { z := false, n := false, h := decide (s.cpu.sp.toNat % 16 + e.toNat % 16 > 15),
                       c := decide (s.cpu.sp.toNat % 256 + e.toNat > 255) }
    Row (.addSp e) [0xE8, e.toNat] 16 ∧ Row (.ldHlSp e) [0xF8, e.toNat] 12 ∧
    (∃ t, exec (.addSpE8 e) s = .next t ∧ (t.cpu.sp.toNat : Int) = r ∧ t.cpu.flags = f ∧ RegsKept [] s t ∧
      t.cpu.pc = s.cpu.pc ∧ ControlKept s t ∧ SameBeyondCpu s t) ∧
    (∃ t, exec (.ldHlSpE8 e) s = .next t ∧ ((hl t).toNat : Int) = r ∧ t.cpu.flags = f ∧ Frame [.h, .l] s t)

/-- R204, R205: a push decrements `SP` and writes the high byte, then again and writes the low byte; nothing else
of the processor changes. -/
def Obligations.PushForms : Prop :=
  ∀ (f : Form) (v : Word) (s s1 s2 : State), PushForm f v s →
    writeByte { s with cpu := { s.cpu with sp := s.cpu.sp - 1 } } (s.cpu.sp - 1) (hiByte v) = .ok s1 →
    writeByte { s1 with cpu := { s1.cpu with sp := s.cpu.sp - 2 } } (s.cpu.sp - 2) (loByte v) = .ok s2 →
    exec f.toInstr s = .next s2 ∧ s2.cpu = { s.cpu with sp := s.cpu.sp - 2 } ∧
      Row f [if f = .pushAf then 0xF5 else if f = .push .bc then 0xC5 else if f = .push .de then 0xD5 else 0xE5] 16

/-- R204, R205, R306, R307, R310 with R13 and R73: a push or a call onto plain storage puts the high byte at `SP - 1`
and the low byte at `SP - 2`; every other byte and every register but `SP` (and `PC` for a call) is as before. -/
def Obligations.StackStores : Prop :=
  ∀ (f : Form) (v pc' : Word) (s : State) (c1 c2 : Store × Nat),
    (PushForm f v s ∧ pc' = s.cpu.pc ∨ CallForm f pc' s ∧ v = s.cpu.pc) → MemoryInv s →
    plainCell s (s.cpu.sp - 1) = some c1 → plainCell s (s.cpu.sp - 2) = some c2 →
    ∃ t, exec f.toInstr s = .next t ∧ t.cpu = { s.cpu with sp := s.cpu.sp - 2, pc := pc' } ∧
      OnlyStores { s with cpu := t.cpu } t ∧
      ∀ b, readByte t b = afterStore s c2 (loByte v) b (afterStore s c1 (hiByte v) b (readByte s b))

/-- R206, R207: a pop reads the low byte at `SP` and the high byte at `SP + 1`, adds 2 to `SP`, and changes nothing
but its pair; `POP AF` takes the flags from the low byte's bits 7 to 4. -/
def Obligations.PopForms : Prop :=
  (∀ r : StackPair, Row (.pop r) [0xC1 + 16 * stackNumber r] 12 ∧ Row .popAf [0xF1] 12) ∧
  ∀ (s : State) (lo hi : Byte), readByte s s.cpu.sp = .ok lo → readByte s (s.cpu.sp + 1) = .ok hi →
    exec .popBc s = .next { s with cpu := { s.cpu with b := hi, c := lo, sp := s.cpu.sp + 2 } } ∧
    exec .popDe s = .next { s with cpu := { s.cpu with d := hi, e := lo, sp := s.cpu.sp + 2 } } ∧
    exec .popHl s = .next { s with cpu := { s.cpu with h := hi, l := lo, sp := s.cpu.sp + 2 } } ∧
    ∃ t, exec .popAf s = .next t ∧ t = { s with cpu := { t.cpu with sp := s.cpu.sp + 2 } } ∧
      t.cpu.flags = { z := lo.getLsbD 7, n := lo.getLsbD 6, h := lo.getLsbD 5, c := lo.getLsbD 4 } ∧
      t.cpu.a = hi ∧ RegsKept [.a] s t ∧ t.cpu.pc = s.cpu.pc ∧ ControlKept s t

/-! ### Arithmetic and logic -/

/-- R220, R221 to R232: `ADD`, `ADC`, `SUB`, `SBC` with each operand form: `A` and the four flags by exact
arithmetic; nothing else changes. -/
def Obligations.AluArithmetic : Prop :=
  ∀ (op : AluOp) (x : Byte) (f : Form) (s : State), AluOperand op x f s →
    let cin : Nat := if op = .adc ∨ op = .sbc then s.cpu.cf.toNat else 0
    AluRows op ∧ (op = .add ∨ op = .adc → ∃ t, exec f.toInstr s = .next t ∧ Frame [.a] s t ∧
      t.cpu.a.toNat = (s.cpu.a.toNat + x.toNat + cin) % 256 ∧
      t.cpu.zf = decide ((s.cpu.a.toNat + x.toNat + cin) % 256 = 0) ∧ t.cpu.nf = false ∧
      t.cpu.hf = decide (s.cpu.a.toNat % 16 + x.toNat % 16 + cin > 15) ∧
      t.cpu.cf = decide (s.cpu.a.toNat + x.toNat + cin > 255)) ∧
    (op = .sub ∨ op = .sbc → ∃ t, exec f.toInstr s = .next t ∧ Frame [.a] s t ∧
      (t.cpu.a.toNat : Int) = ((s.cpu.a.toNat : Int) - x.toNat - cin) % 256 ∧
      t.cpu.zf = decide (((s.cpu.a.toNat : Int) - x.toNat - cin) % 256 = 0) ∧ t.cpu.nf = true ∧
      t.cpu.hf = decide (s.cpu.a.toNat % 16 < x.toNat % 16 + cin) ∧
      t.cpu.cf = decide (s.cpu.a.toNat < x.toNat + cin))

/-- R233 to R241: `AND`, `XOR`, `OR` with each operand form. -/
def Obligations.AluLogic : Prop :=
  ∀ (op : AluOp) (x : Byte) (f : Form) (s : State), AluOperand op x f s → AluRows op ∧
    (op = .and → ∃ t, exec f.toInstr s = .next t ∧ Frame [.a] s t ∧ t.cpu.a = s.cpu.a &&& x ∧
      t.cpu.flags = { z := s.cpu.a &&& x == 0, n := false, h := true, c := false }) ∧
    (op = .xor → ∃ t, exec f.toInstr s = .next t ∧ Frame [.a] s t ∧ t.cpu.a = s.cpu.a ^^^ x ∧
      t.cpu.flags = { z := s.cpu.a ^^^ x == 0, n := false, h := false, c := false }) ∧
    (op = .or → ∃ t, exec f.toInstr s = .next t ∧ Frame [.a] s t ∧ t.cpu.a = s.cpu.a ||| x ∧
      t.cpu.flags = { z := s.cpu.a ||| x == 0, n := false, h := false, c := false })

/-- R242 to R244: `CP` with each operand form sets the flags of the subtraction and writes no register. -/
def Obligations.AluCompare : Prop :=
  ∀ (x : Byte) (f : Form) (s : State), AluOperand .cp x f s → AluRows .cp ∧
    ∃ t, exec f.toInstr s = .next t ∧ Frame [] s t ∧
      t.cpu.flags = { z := s.cpu.a == x, n := true, h := decide (s.cpu.a.toNat % 16 < x.toNat % 16),
                      c := decide (s.cpu.a.toNat < x.toNat) }

/-- R344, R360: an ALU operation, `INC`, `DEC`, rotate, `BIT`, `RES` or `SET` whose operand at `HL` cannot be read ends
in the fault of that read; and a fault of any instruction is an unassigned opcode, a reserved `STOP`, or an address
without a device (R95: 0xFEA0 to 0xFEFF, or an I/O address without a register in this mode) under
`UNMAPPED_POLICY = fault`; no instruction is refused. -/
def Obligations.FaultCauses : Prop :=
  (∀ (s : State) (e : Fault) (op : AluOp) (ro : RotOp) (n : BitNo), readByte s (hl s) = .error e →
    exec (Form.aluAtHl op).toInstr s = .fault e ∧ exec (Form.rotAtHl ro).toInstr s = .fault e ∧
    exec (Form.bitAtHl n).toInstr s = .fault e ∧ exec (Form.resAtHl n).toInstr s = .fault e ∧
    exec (Form.setAtHl n).toInstr s = .fault e ∧ exec .incAtHl s = .fault e ∧ exec .decAtHl s = .fault e) ∧
  (∀ (i : Instr) (s : State),
    (∀ f, exec i s = .fault f → (∃ op, f = .illegalOpcode op ∧ encode i = [op] ∧ i.selectsInstruction = false) ∨
      (∃ second, f = .reservedStopOperand second ∧ i = .stop second ∧ second ≠ 0) ∨
      (∃ a, f = .busGap a ∧ s.params.unmapped = .fault ∧
        (0xFEA0 ≤ a.toNat ∧ a.toNat < 0xFF00 ∨
          0xFF00 ≤ a.toNat ∧ a.toNat < 0xFF80 ∧ ioReg s.cart.colorMode (a.toNat - 0xFF00) = none))) ∧
    (∀ q, exec i s ≠ .refused q))

/-- R344, R360: a push, call, return, pop, `LD (a16),SP` or rewriting of the byte at `HL`, one of whose accesses cannot
be made, ends in the fault of that access. -/
def Obligations.FailingAccessesFault : Prop :=
  ∀ (s : State) (e : Fault),
    (∀ (f : Form) (v x : Word), (PushForm f v s ∧ x = v ∨ CallForm f v s ∧ x = s.cpu.pc) →
      (writeByte { s with cpu := { s.cpu with sp := s.cpu.sp - 1 } } (s.cpu.sp - 1) (hiByte x) = .error e →
        exec f.toInstr s = .fault e) ∧
      ∀ s1, writeByte { s with cpu := { s.cpu with sp := s.cpu.sp - 1 } } (s.cpu.sp - 1) (hiByte x) = .ok s1 →
        writeByte { s1 with cpu := { s1.cpu with sp := s.cpu.sp - 2 } } (s.cpu.sp - 2) (loByte x) = .error e →
        exec f.toInstr s = .fault e) ∧
    (readByte s s.cpu.sp = .error e ∨ (∃ lo, readByte s s.cpu.sp = .ok lo) ∧ readByte s (s.cpu.sp + 1) = .error e →
      exec .popBc s = .fault e ∧ exec .popDe s = .fault e ∧ exec .popHl s = .fault e ∧ exec .popAf s = .fault e ∧
      exec .ret s = .fault e ∧ exec .reti s = .fault e ∧
      ∀ cc, condHolds cc s.cpu.zf s.cpu.cf = true → exec (Form.retIf cc).toInstr s = .fault e) ∧
    (∀ addr : Word,
      (writeByte s addr (loByte s.cpu.sp) = .error e ∨
        ∃ s1, writeByte s addr (loByte s.cpu.sp) = .ok s1 ∧ writeByte s1 (addr + 1) (hiByte s.cpu.sp) = .error e) →
      exec (.ldAtA16Sp addr) s = .fault e) ∧
    ∀ v r : Byte, readByte s (hl s) = .ok v → writeByte s (hl s) r = .error e →
      (r = v + 1 → exec .incAtHl s = .fault e) ∧ (r = v - 1 → exec .decAtHl s = .fault e) ∧
      ∀ (n : BitNo) (op : RotOp),
        (r = v &&& ~~~(1#8 <<< bitIndex n) → exec (Form.resAtHl n).toInstr s = .fault e) ∧
        (r = v ||| (1#8 <<< bitIndex n) → exec (Form.setAtHl n).toInstr s = .fault e) ∧
        ((∀ i, i < 8 → r.getLsbD i = rotatedBit op v s.cpu.cf i) → exec (Form.rotAtHl op).toInstr s = .fault e)

/-- R245, R247: `INC r` and `DEC r`, modulo 256, with `Cf` unchanged. -/
def Obligations.IncDecRegister : Prop :=
  ∀ (r : Reg8) (s : State),
    Row (.incReg r) [0x04 + 8 * regNumber r] 4 ∧ Row (.decReg r) [0x05 + 8 * regNumber r] 4 ∧
    (∃ t, exec (Form.incReg r).toInstr s = .next t ∧ Frame [r] s t ∧
      (getReg r t).toNat = ((getReg r s).toNat + 1) % 256 ∧
      t.cpu.flags = { z := decide ((getReg r s).toNat = 255), n := false, h := decide ((getReg r s).toNat % 16 = 15),
                      c := s.cpu.cf }) ∧
    (∃ t, exec (Form.decReg r).toInstr s = .next t ∧ Frame [r] s t ∧
      (getReg r t).toNat = ((getReg r s).toNat + 255) % 256 ∧
      t.cpu.flags = { z := decide ((getReg r s).toNat = 1), n := true, h := decide ((getReg r s).toNat % 16 = 0),
                      c := s.cpu.cf })

/-- R246, R248: `INC (HL)` and `DEC (HL)` read, write the result at the same address through the bus, and set the
flags as the register forms do. -/
def Obligations.IncDecMemory : Prop :=
  ∀ (s u : State) (v r : Byte), readByte s (hl s) = .ok v → writeByte s (hl s) r = .ok u →
    Row .incAtHl [0x34] 12 ∧ Row .decAtHl [0x35] 12 ∧
    (r.toNat = (v.toNat + 1) % 256 → ∃ t, exec .incAtHl s = .next t ∧
      t = { u with cpu := { s.cpu with zf := decide (r.toNat = 0), nf := false, hf := decide (v.toNat % 16 = 15) } }) ∧
    (r.toNat = (v.toNat + 255) % 256 → ∃ t, exec .decAtHl s = .next t ∧
      t = { u with cpu := { s.cpu with zf := decide (r.toNat = 0), nf := true, hf := decide (v.toNat % 16 = 0) } })

/-- R249: `DAA` for every accumulator and every combination of flags. -/
def Obligations.DaaResult : Prop :=
  ∀ s : State,
    let a : Int := s.cpu.a.toNat
    let big : Bool := s.cpu.cf || decide (s.cpu.a.toNat > 0x99)
    let up : Int := (if big then 0x60 else 0) + (if s.cpu.hf || decide (s.cpu.a.toNat % 16 > 9) then 0x06 else 0)
    let down : Int := (if s.cpu.cf then 0x60 else 0) + (if s.cpu.hf then 0x06 else 0)
    let r : Int := (if s.cpu.nf then a - down else a + up) % 256
    Row .daa [0x27] 4 ∧
    ∃ t, exec .daa s = .next t ∧ Frame [.a] s t ∧ (t.cpu.a.toNat : Int) = r ∧
      t.cpu.flags = { z := decide (r = 0), n := s.cpu.nf, h := false, c := if s.cpu.nf then s.cpu.cf else big }

/-- What `DAA` is for (R249's title): after `ADC A,d8` or `SBC A,d8` of two-digit decimal numbers, `A` holds the
decimal sum or difference modulo 100 and `Cf` the decimal carry or borrow. -/
def Obligations.DaaDecimal : Prop :=
  ∀ (m n : Nat) (s : State), m < 100 → n < 100 → s.cpu.a.toNat = 16 * (m / 10) + m % 10 →
    (∃ t u, exec (.adcAD8 (BitVec.ofNat 8 (16 * (n / 10) + n % 10))) s = .next t ∧ exec .daa t = .next u ∧
      u.cpu.a.toNat = 16 * ((m + n + s.cpu.cf.toNat) % 100 / 10) + (m + n + s.cpu.cf.toNat) % 10 ∧
      u.cpu.cf = decide (100 ≤ m + n + s.cpu.cf.toNat)) ∧
    (∃ t u, exec (.sbcAD8 (BitVec.ofNat 8 (16 * (n / 10) + n % 10))) s = .next t ∧ exec .daa t = .next u ∧
      u.cpu.a.toNat = 16 * ((m + 200 - n - s.cpu.cf.toNat) % 100 / 10) + (m + 200 - n - s.cpu.cf.toNat) % 10 ∧
      u.cpu.cf = decide (m < n + s.cpu.cf.toNat))

/-- R250, R251, R252: `CPL` complements `A` and sets `N` and `H`; `SCF` sets `Cf`, `CCF` inverts it, both clear `N` and
`H`; nothing else changes. -/
def Obligations.ComplementAndCarry : Prop :=
  ∀ s : State,
    Row .cpl [0x2F] 4 ∧ Row .scf [0x37] 4 ∧ Row .ccf [0x3F] 4 ∧
    exec .cpl s = .next { s with cpu := { s.cpu with a := s.cpu.a ^^^ 0xFF#8, nf := true, hf := true } } ∧
    exec .scf s = .next { s with cpu := { s.cpu with nf := false, hf := false, cf := true } } ∧
    exec .ccf s = .next { s with cpu := { s.cpu with nf := false, hf := false, cf := !s.cpu.cf } }

/-- R260, R261, R262: `ADD HL,rr` with its flags; `INC rr` and `DEC rr`, modulo `2^16`, no flag changed; nothing else
changed. -/
def Obligations.PairArithmetic : Prop :=
  ∀ (r : Reg16) (s : State),
    Row (.addHl r) [0x09 + 16 * pairNumber r] 8 ∧ Row (.incPair r) [0x03 + 16 * pairNumber r] 8 ∧
    Row (.decPair r) [0x0B + 16 * pairNumber r] 8 ∧
    (∃ t, exec (Form.addHl r).toInstr s = .next t ∧ Frame [.h, .l] s t ∧
      (hl t).toNat = ((hl s).toNat + (getPair r s).toNat) % 65536 ∧
      t.cpu.flags = { z := s.cpu.zf, n := false,
                      h := decide ((hl s).toNat % 4096 + (getPair r s).toNat % 4096 > 0x0FFF),
                      c := decide ((hl s).toNat + (getPair r s).toNat > 0xFFFF) }) ∧
    (∃ t, exec (Form.incPair r).toInstr s = .next t ∧ (getPair r t).toNat = ((getPair r s).toNat + 1) % 65536 ∧
      (∀ q, q ≠ r → getPair q t = getPair q s) ∧ t.cpu.a = s.cpu.a ∧ t.cpu.pc = s.cpu.pc ∧
      t.cpu.flags = s.cpu.flags ∧ ControlKept s t ∧ SameBeyondCpu s t) ∧
    (∃ t, exec (Form.decPair r).toInstr s = .next t ∧ (getPair r t).toNat = ((getPair r s).toNat + 65535) % 65536 ∧
      (∀ q, q ≠ r → getPair q t = getPair q s) ∧ t.cpu.a = s.cpu.a ∧ t.cpu.pc = s.cpu.pc ∧
      t.cpu.flags = s.cpu.flags ∧ ControlKept s t ∧ SameBeyondCpu s t)

/-! ### Rotates, shifts, bits -/

/-- R270 to R275, R277, R279, R281, R283, R285, R287, R289: each rotate and shift of a register, bit by bit, with its
flags; the accumulator forms clear `Z`. -/
def Obligations.RotateRegister : Prop :=
  (∀ (op : RotOp) (r : Reg8), Row (.rot op r) [0xCB, 8 * rotNumber op + regNumber r] 8) ∧
  Row .rlca [0x07] 4 ∧ Row .rrca [0x0F] 4 ∧ Row .rla [0x17] 4 ∧ Row .rra [0x1F] 4 ∧
  (∀ (op : RotOp) (r : Reg8) (s : State), ∃ t, exec (Form.rot op r).toInstr s = .next t ∧ Frame [r] s t ∧
    (∀ i, i < 8 → (getReg r t).getLsbD i = rotatedBit op (getReg r s) s.cpu.cf i) ∧
    t.cpu.flags = { z := getReg r t == 0, n := false, h := false, c := rotatedOut op (getReg r s) }) ∧
  (∀ (op : RotOp) (f : Form) (s : State),
    (f = .rlca ∧ op = .rlc ∨ f = .rrca ∧ op = .rrc ∨ f = .rla ∧ op = .rl ∨ f = .rra ∧ op = .rr) →
    ∃ t, exec f.toInstr s = .next t ∧ Frame [.a] s t ∧
      (∀ i, i < 8 → t.cpu.a.getLsbD i = rotatedBit op s.cpu.a s.cpu.cf i) ∧
      t.cpu.flags = { z := false, n := false, h := false, c := rotatedOut op s.cpu.a })

/-- R276, R278, R280, R282, R284, R286, R288, R290: each rotate and shift of the byte at `HL`, bit by bit, with its
flags, read and written back through the bus; nothing else changes. -/
def Obligations.RotateMemory : Prop :=
  ∀ (op : RotOp) (s u : State) (v r : Byte), readByte s (hl s) = .ok v →
    (∀ i, i < 8 → r.getLsbD i = rotatedBit op v s.cpu.cf i) → writeByte s (hl s) r = .ok u →
    exec (Form.rotAtHl op).toInstr s =
      .next { u with cpu := { s.cpu with zf := r == 0, nf := false, hf := false, cf := rotatedOut op v } } ∧
    Row (.rotAtHl op) [0xCB, 0x06 + 8 * rotNumber op] 16

/-- R291, R292: `BIT b,r` and `BIT b,(HL)` set `Z` to the complement of the bit and change nothing but `Z`, `N`,
`H`. -/
def Obligations.BitTests : Prop :=
  ∀ (n : BitNo) (r : Reg8) (s : State),
    Row (.bit n r) [0xCB, 0x40 + 8 * bitIndex n + regNumber r] 8 ∧ Row (.bitAtHl n) [0xCB, 0x46 + 8 * bitIndex n] 12 ∧
    exec (Form.bit n r).toInstr s =
      .next { s with cpu := { s.cpu with zf := !(getReg r s).getLsbD (bitIndex n), nf := false, hf := true } } ∧
    ∀ v, readByte s (hl s) = .ok v → exec (Form.bitAtHl n).toInstr s =
      .next { s with cpu := { s.cpu with zf := !v.getLsbD (bitIndex n), nf := false, hf := true } }

/-- R293 to R296: `RES` and `SET` change the one bit of a register, or of the byte at `HL` written back through the
bus, and no flag. -/
def Obligations.ResetAndSetBits : Prop :=
  ∀ (n : BitNo) (r : Reg8) (s : State),
    Row (.res n r) [0xCB, 0x80 + 8 * bitIndex n + regNumber r] 8 ∧ Row (.resAtHl n) [0xCB, 0x86 + 8 * bitIndex n] 16 ∧
    Row (.set n r) [0xCB, 0xC0 + 8 * bitIndex n + regNumber r] 8 ∧ Row (.setAtHl n) [0xCB, 0xC6 + 8 * bitIndex n] 16 ∧
    (∃ t, exec (Form.res n r).toInstr s = .next t ∧ Frame [r] s t ∧ t.cpu.flags = s.cpu.flags ∧
      ∀ i, i < 8 → (getReg r t).getLsbD i = (decide (i ≠ bitIndex n) && (getReg r s).getLsbD i)) ∧
    (∃ t, exec (Form.set n r).toInstr s = .next t ∧ Frame [r] s t ∧ t.cpu.flags = s.cpu.flags ∧
      ∀ i, i < 8 → (getReg r t).getLsbD i = (decide (i = bitIndex n) || (getReg r s).getLsbD i)) ∧
    (∀ (v w : Byte) (u : State), readByte s (hl s) = .ok v → writeByte s (hl s) w = .ok u →
      ((∀ i, i < 8 → w.getLsbD i = (decide (i ≠ bitIndex n) && v.getLsbD i)) →
        exec (Form.resAtHl n).toInstr s = .next u ∧ u.cpu = s.cpu) ∧
      ((∀ i, i < 8 → w.getLsbD i = (decide (i = bitIndex n) || v.getLsbD i)) →
        exec (Form.setAtHl n).toInstr s = .next u ∧ u.cpu = s.cpu))

/-! ### Control flow -/

/-- R300 to R305: the jumps change `PC` and nothing else, a conditional one only if its condition holds; a relative
one adds the signed offset to the address after the instruction, modulo `2^16`. -/
def Obligations.Jumps : Prop :=
  ∀ (addr : Word) (e : Byte) (cc : Cond) (s : State),
    Row (.jp addr) [0xC3, addr.toNat % 256, addr.toNat / 256] 16 ∧ Row .jpHl [0xE9] 4 ∧ Row (.jr e) [0x18, e.toNat] 12 ∧
    CondRow cc (.jpIf cc addr) [0xC2 + 8 * condNumber cc, addr.toNat % 256, addr.toNat / 256] 16 12 ∧
    CondRow cc (.jrIf cc e) [0x20 + 8 * condNumber cc, e.toNat] 12 8 ∧
    exec (.jpA16 addr) s = .next { s with cpu := { s.cpu with pc := addr } } ∧
    exec .jpHl s = .next { s with cpu := { s.cpu with pc := hl s } } ∧
    (condHolds cc s.cpu.zf s.cpu.cf = true →
      exec (Form.jpIf cc addr).toInstr s = .next { s with cpu := { s.cpu with pc := addr } }) ∧
    (condHolds cc s.cpu.zf s.cpu.cf = false →
      exec (Form.jpIf cc addr).toInstr s = .next s ∧ exec (Form.jrIf cc e).toInstr s = .next s) ∧
    ∃ t : State, t = { s with cpu := { s.cpu with pc := t.cpu.pc } } ∧
      (t.cpu.pc.toNat : Int) =
        ((s.cpu.pc.toNat : Int) + (if e.toNat < 128 then (e.toNat : Int) else (e.toNat : Int) - 256)) % 65536 ∧
      exec (.jrE8 e) s = .next t ∧
      (condHolds cc s.cpu.zf s.cpu.cf = true → exec (Form.jrIf cc e).toInstr s = .next t)

/-- R306, R307, R310: a call pushes the address after itself, high byte first, and jumps; a conditional call whose
condition fails does nothing; `RST` number `ttt` of the encoding calls `8 * ttt`. -/
def Obligations.Calls : Prop :=
  (∀ (f : Form) (target : Word) (s s1 s2 : State), CallForm f target s →
    writeByte { s with cpu := { s.cpu with sp := s.cpu.sp - 1 } } (s.cpu.sp - 1) (hiByte s.cpu.pc) = .ok s1 →
    writeByte { s1 with cpu := { s1.cpu with sp := s.cpu.sp - 2 } } (s.cpu.sp - 2) (loByte s.cpu.pc) = .ok s2 →
    exec f.toInstr s = .next { s2 with cpu := { s.cpu with sp := s.cpu.sp - 2, pc := target } }) ∧
  (∀ (cc : Cond) (addr : Word) (s : State), condHolds cc s.cpu.zf s.cpu.cf = false →
    exec (Form.callIf cc addr).toInstr s = .next s) ∧
  (∀ t : RstTarget, ∃ n, n < 8 ∧ Row (.rst t) [0xC7 + 8 * n] 16 ∧ (restartAddress t).toNat = 8 * n) ∧
  (∀ (cc : Cond) (addr : Word), Row (.call addr) [0xCD, addr.toNat % 256, addr.toNat / 256] 24 ∧
    CondRow cc (.callIf cc addr) [0xC4 + 8 * condNumber cc, addr.toNat % 256, addr.toNat / 256] 24 12)

/-- R308, R311: a return pops `PC` and changes nothing else; a conditional one whose condition fails does nothing. -/
def Obligations.Returns : Prop :=
  ∀ (cc : Cond) (s : State),
    Row .ret [0xC9] 16 ∧ CondRow cc (.retIf cc) [0xC0 + 8 * condNumber cc] 20 8 ∧
    (∀ lo hi : Byte, readByte s s.cpu.sp = .ok lo → readByte s (s.cpu.sp + 1) = .ok hi →
      exec .ret s = .next { s with cpu := { s.cpu with pc := word hi lo, sp := s.cpu.sp + 2 } } ∧
      (condHolds cc s.cpu.zf s.cpu.cf = true → exec (Form.retIf cc).toInstr s =
        .next { s with cpu := { s.cpu with pc := word hi lo, sp := s.cpu.sp + 2 } })) ∧
    (condHolds cc s.cpu.zf s.cpu.cf = false → exec (Form.retIf cc).toInstr s = .next s)

/-- R309: `RETI` pops `PC` and, with `RETI_DELAY = 0`, sets `IME` and clears the counter; with `RETI_DELAY = 1` it
enables as `EI` does. -/
def Obligations.ReturnFromInterrupt : Prop :=
  ∀ (s : State) (lo hi : Byte), readByte s s.cpu.sp = .ok lo → readByte s (s.cpu.sp + 1) = .ok hi →
    let p : Cpu := { s.cpu with pc := word hi lo, sp := s.cpu.sp + 2 }
    Row .reti [0xD9] 16 ∧
    (s.params.retiDelay = false → exec .reti s = .next { s with cpu := { p with ime := true, imePending := 0 } }) ∧
    (s.params.retiDelay = true → exec .reti s = exec .ei { s with cpu := p })

/-! ### Whole-machine rules -/

/-- R81, R95, R340, R362: under `UNMAPPED_POLICY = ff_ignore` every instruction other than the illegal rows and a
reserved `STOP` completes in every state, and changes neither the cartridge image, the parameters, the clock count nor
the fault. -/
def Obligations.EveryInstructionCompletes : Prop :=
  ∀ (i : Instr) (s : State), s.params.unmapped = .ffIgnore → i.selectsInstruction = true → i.stopOperandDefined = true →
    ∃ t, exec i s = .next t ∧ t.cart = s.cart ∧ t.params = s.params ∧ t.clock = s.clock ∧ t.fault = s.fault

/-- R27, R29, R31, R362: only `DI`, `EI` and `RETI` change `IME` or its counter, only `HALT` and `STOP` the run state,
only `STOP` the speed, only `HALT` the repeat bit. -/
def Obligations.ControlStateWriters : Prop :=
  ∀ (i : Instr) (s t : State), exec i s = .next t →
    (i ≠ .di → i ≠ .ei → i ≠ .reti → t.cpu.ime = s.cpu.ime ∧ t.cpu.imePending = s.cpu.imePending) ∧
    (i ≠ .halt → (∀ second, i ≠ .stop second) → t.cpu.runState = s.cpu.runState) ∧
    ((∀ second, i ≠ .stop second) → t.cpu.speedShift = s.cpu.speedShift) ∧
    (i ≠ .halt → t.cpu.haltRepeat = s.cpu.haltRepeat)

/-- R570 and the table's cycles: with the standard costs every instruction costs a multiple of 4 between 4 and 24. -/
def Obligations.CostsAreMultiplesOfFour : Prop :=
  ∀ (i : Instr) (s : State), s.params.cycles = .standard → cost i s % 4 = 0 ∧ 4 ≤ cost i s ∧ cost i s ≤ 24

/-- R42 and the rules it lists: the machine right after reset, in monochrome mode, in the values the spec gives. -/
def Obligations.ResetValues : Prop :=
  let s := State.reset
  s.cpu.a = 0x01 ∧ af s = 0x01B0 ∧ bc s = 0x0013 ∧ de s = 0x00D8 ∧ hl s = 0x014D ∧ s.cpu.sp = 0xFFFE ∧
  s.cpu.pc = 0x0100 ∧ s.cpu.ime = false ∧ s.cpu.imePending = 0 ∧ s.cpu.runState = .running ∧
  s.cpu.haltRepeat = false ∧ s.cpu.speedShift = false ∧ s.fault = none ∧ s.clock = 0 ∧
  readByte s 0xFF0F = .ok 0xE1 ∧ readByte s 0xFFFF = .ok 0x00 ∧ readByte s 0xFF00 = .ok 0xCF ∧
  readByte s 0xFF02 = .ok 0x7E ∧ readByte s 0xFF07 = .ok 0xF8 ∧ readByte s 0xFF26 = .ok 0xF1 ∧
  readByte s 0xFF40 = .ok 0x91 ∧ readByte s 0xFF41 = .ok 0x86 ∧ readByte s 0xFF46 = .ok 0xFF ∧
  readByte s 0xFF47 = .ok 0xFC

/-- The invariants hold at reset. THE MODEL'S CHOICES: the contents of the byte stores (log entry 1), the screen and its
line buffer (log entry 3), the clock registers and the addresses of a video DMA (log entry 4) are given no reset value by
the spec, so what this says of them is about the values the model chose. -/
def Obligations.ResetIsSafe : Prop := SafeState State.reset

/-- Every step keeps every byte store in canonical form. -/
def Obligations.StepKeepsMemory : Prop :=
  ∀ s t : State, MemoryInv s → step s = .next t → MemoryInv t

/-- R409, R412, R413: every step keeps the relation between line, cycle, mode and `LY`. -/
def Obligations.StepKeepsScanline : Prop :=
  ∀ s t : State, PpuInv s → step s = .next t → PpuInv t

/-- Every step keeps the ranges: the pending enable (R324, R343), the monochrome restrictions (R31, R38, R96), the
screen's size (R401), the sound counters (R501 to R510), the timer (R37), the serial port (R375), the clock (R476), the
registers of every bank controller (R463, R464, R466 to R470), and the zero low bits of the addresses of a video DMA
(R99). -/
def Obligations.StepKeepsRanges : Prop :=
  ∀ s t : State, step s = .next t →
    (EnableInv s → EnableInv t) ∧ (MonoInv s → MonoInv t) ∧ (ScreenInv s → ScreenInv t) ∧
    (SoundInv s.apu → SoundInv t.apu) ∧ (TimerInv s → TimerInv t) ∧ (SerialInv s → SerialInv t) ∧
    (RtcInv s → RtcInv t) ∧ (MbcInv s → MbcInv t) ∧ (TransferInv s → TransferInv t)

/-- R401, R402, R413 a, c: with the display on, each cycle of the picture generator moves it one position on through the
154 lines of 456 cycles, so a frame is 70,224 cycles and no fewer; with no horizontal-blank transfer active, any number of
cycles can pass; with the display off, none does anything. -/
def Obligations.FrameIsConstant : Prop :=
  ∀ (s : State) (m : Nat), PpuInv s →
    (lcdcBit s 7 = true → ∀ t, ppuAdvance m s = .ok t → t.ppu.line ≤ 153 ∧ t.ppu.lineCycle ≤ 455 ∧
      456 * t.ppu.line + t.ppu.lineCycle = (456 * s.ppu.line + s.ppu.lineCycle + m) % 70224) ∧
    (s.bus.hdmaActive = false → ∃ t, ppuAdvance m s = .ok t) ∧
    (lcdcBit s 7 = false → ppuAdvance m s = .ok s)

/-- R411, R412, R409: a write of `STAT` changes the enables and nothing else; switching the display off clears line,
`LY`, cycle and mode, and fills the frame without an interrupt; switching it on enters mode 2 of line 0 and compares;
`LY` is not writable. -/
def Obligations.DisplayRules : Prop :=
  ∀ (s : State) (v : Byte),
    (∀ r, readByte s 0xFF41 = .ok r → ∃ t, writeByte s 0xFF41 v = .ok t ∧
      t = { s with ppu := { s.ppu with statEn := t.ppu.statEn } } ∧
      readByte t 0xFF41 = .ok ((v &&& 0x78) ||| (r &&& 0x87))) ∧
    (lcdcBit s 7 = true → v.getLsbD 7 = false → ∃ t, writeByte s 0xFF40 v = .ok t ∧ t.ppu.lcdc = v ∧
      t.ppu.line = 0 ∧ t.ppu.ly = 0 ∧ t.ppu.lineCycle = 0 ∧ t.ppu.mode = .hblank ∧
      (∀ row ∈ t.ppu.frame, ∀ px ∈ row, px = fillPixel s.cart.colorMode) ∧ t.ppu.frames = s.ppu.frames ∧
      t = { s with ppu := t.ppu }) ∧
    (lcdcBit s 7 = false → v.getLsbD 7 = true → ∃ t, writeByte s 0xFF40 v = .ok t ∧ t.ppu.lcdc = v ∧
      t.ppu.line = 0 ∧ t.ppu.ly = 0 ∧ t.ppu.lineCycle = 0 ∧ t.ppu.mode = .oamScan ∧
      t.ifReg = s.ifReg ||| (if s.ppu.statEn.getLsbD 2 || (s.ppu.lyc == 0 && s.ppu.statEn.getLsbD 3) then 2 else 0) ∧
      t = { s with ppu := t.ppu, ifReg := t.ifReg }) ∧
    writeByte s 0xFF44 v = .ok s

/-! ### Devices -/

/-- R82, R83, R84, R461, R466: a read of `0x0000-0x3FFF` gives the byte of bank 0 of the image, one of `0x4000-0x7FFF`
the byte of the current bank, which is a bank of the image; a store below `0x8000` changes no byte of ROM and not the
fixed region; an `MBC1` never shows banks `0x00`, `0x20`, `0x40` or `0x60` of a 128-bank image in the switchable region,
where the next bank stands. -/
def Obligations.RomAndBanks : Prop :=
  ∀ (s : State) (a : Word) (v : Byte), a.toNat < 0x8000 →
    (a.toNat < 0x4000 → readByte s a = .ok (s.cart.rom.read a.toNat)) ∧
    (0x4000 ≤ a.toNat → 0 < s.cart.romBanks → romBank s < s.cart.romBanks ∧
      readByte s a = .ok (s.cart.rom.read (romBank s * 0x4000 + (a.toNat - 0x4000)))) ∧
    (∃ t, writeByte s a v = .ok t ∧ t.cart = s.cart ∧ t.cpu = s.cpu ∧
      ∀ b : Word, b.toNat < 0x4000 → readByte t b = readByte s b) ∧
    (s.cart.kind = .mbc1 → s.cart.romBanks = 128 → romBank s % 32 ≠ 0 ∧
      (s.mbc.bankMode = false → s.mbc.romLo.toNat < 32 →
        romBank s = 32 * s.mbc.hi2.toNat + (if s.mbc.romLo = 0 then 1 else s.mbc.romLo.toNat)))

/-- R98: a write of `v < 0xE0` to `DMA` copies the 160 bytes at `0x100 * v` into OAM whatever the mode, reading the
source without the gating; a write of another `v` copies nothing; nothing but OAM and the register changes, and the
register reads the last value written. -/
def Obligations.OamDma : Prop :=
  ∀ (s : State) (v : Byte), s.oam.wf = true →
    ∃ t, writeByte s 0xFF46#16 v = .ok t ∧ t = { s with oam := t.oam, bus := { s.bus with dma := v } } ∧
      readByte t 0xFF46#16 = .ok v ∧
      (v.toNat < 0xE0 → ∀ i, i < 160 → readWith false s (word v 0 + BitVec.ofNat 16 i) = .ok (t.oam.read i)) ∧
      (0xE0 ≤ v.toNat → t.oam = s.oam)

/-- R99: one block of a horizontal-blank transfer, from any source. If every byte of the source can be read, the block
copies 16 bytes to the current video-RAM bank, changes no other byte of it, advances both addresses and counts down; the
last block ends the transfer, and `HDMA5` then reads `0xFF`. If one cannot (R95), it ends in the fault of the first.
THE MODEL'S CHOICES: source and destination ignore the mode gating (`readWith false`; log entry 11), and the addresses
wrap modulo 65536 and 8192 (log entry 25). `TransferInv` is R99's own "low 4 bits zero", which every step keeps. -/
def Obligations.HdmaBlockCopies : Prop :=
  ∀ s : State, s.vram.wf = true → s.bus.hdmaActive = true → TransferInv s →
    let source (i : Nat) : Except Fault Byte := readWith false s (s.bus.hdmaSrc + BitVec.ofNat 16 i)
    let dest (i : Nat) : Nat := vramIndex s ((s.bus.hdmaDst.toNat + i) % 8192)
    ((∀ i, i < 16 → ∃ b, source i = .ok b) →
      ∃ t, hdmaBlock s = .ok t ∧
        t = { s with vram := t.vram, bus := { t.bus with vbank := s.bus.vbank, svbk := s.bus.svbk, dma := s.bus.dma } } ∧
        t.bus.hdmaSrc.toNat = (s.bus.hdmaSrc.toNat + 16) % 65536 ∧
        t.bus.hdmaDst.toNat = (s.bus.hdmaDst.toNat + 16) % 8192 ∧
        (∀ i, i < 16 → source i = .ok (t.vram.read (dest i))) ∧
        (∀ o, (∀ i, i < 16 → o ≠ dest i) → t.vram.read o = s.vram.read o) ∧
        (s.bus.hdmaLen = 0 → t.bus.hdmaActive = false ∧ readIo .hdma5 t = 0xFF) ∧
        (s.bus.hdmaLen ≠ 0 → t.bus.hdmaActive = true ∧ t.bus.hdmaLen = s.bus.hdmaLen - 1)) ∧
    ∀ (k : Nat) (e : Fault), k < 16 → (∀ i, i < k → ∃ b, source i = .ok b) → source k = .error e →
      hdmaBlock s = .error e

/-- R371, R372, R36: the timer counts one for each whole period, reloads from `TMA` and requests on overflow (here at
most one overflow in the tick), and holds while disabled; `DIV` counts the same cycles modulo `2^16`. -/
def Obligations.TimerCounts : Prop :=
  ∀ (s : State) (n : Nat),
    let k := (s.timer.ticks + n) / tacPeriod s.timer.tac
    (s.timer.tac.getLsbD 2 = false → timerAdvance n s = s) ∧
    (s.timer.tac.getLsbD 2 = true →
      (timerAdvance n s).timer.ticks = (s.timer.ticks + n) % tacPeriod s.timer.tac ∧
      (s.timer.tima.toNat + k ≤ 255 →
        (timerAdvance n s).timer.tima.toNat = s.timer.tima.toNat + k ∧ (timerAdvance n s).ifReg = s.ifReg) ∧
      (255 < s.timer.tima.toNat + k → s.timer.tima.toNat + k - 256 + s.timer.tma.toNat ≤ 255 →
        (timerAdvance n s).timer.tima.toNat = s.timer.tma.toNat + (s.timer.tima.toNat + k - 256) ∧
        (timerAdvance n s).ifReg = s.ifReg ||| 0b00100#5)) ∧
    (divAdvance n s).timer.divCounter.toNat = (s.timer.divCounter.toNat + n) % 65536

/-- R375, R377: successive advances add up, whatever the cuts; until the counter has run out, an advance counts it down,
requests nothing and leaves `SC[7]`; and a transfer started with the internal clock, advanced by its 8 bit periods, leaves
in `SB` the eight bits of `SERIAL_IN` in order, clears `SC[7]` and requests the serial interrupt. -/
def Obligations.SerialTransfer : Prop :=
  (∀ (s : State) (m n : Nat), serialAdvance n (serialAdvance m s) = serialAdvance (m + n) s) ∧
  (∀ (s : State) (n : Nat), n < s.serial.timer →
    (serialAdvance n s).serial.timer = s.serial.timer - n ∧ (serialAdvance n s).serial.scStart = s.serial.scStart ∧
    (serialAdvance n s).ifReg = s.ifReg) ∧
  ∀ (s t : State) (v : Byte), v.getLsbD 7 = true → v.getLsbD 0 = true →
    t = serialAdvance (8 * (writeSc v s).serial.period) (writeSc v s) →
    (writeSc v s).serial.scStart = true ∧
    (writeSc v s).serial.period = (if s.cart.colorMode && v.getLsbD 1 then 16 else 512) ∧
    t.serial.scStart = false ∧ t.serial.timer = 0 ∧ t.ifReg = s.ifReg ||| 0b01000#5 ∧
    t.serial.bitsIn = s.serial.bitsIn + 8 ∧
    ∀ j, j < 8 → t.serial.sb.getLsbD (7 - j) = serialInBit s (s.serial.bitsIn + j)

/-- R380, R381, R352: `P1` reads its select bits and its selected buttons as 0 bits; a button pressed, a button released
and a write of `P1` set what they name and nothing else; a press or a write that pulls a line low requests the joypad
interrupt, one that pulls none low requests nothing, and a release pulls none low; a press that pulls one low ends
`Stopped`; an event that does not change its bit has no effect. -/
def Obligations.JoypadLines : Prop :=
  ∀ (s : State) (btn : Button) (v : Byte),
    let line (s : State) (k : Nat) : Bool := (readIo .p1 s).getLsbD k
    let Falls (t : State) : Prop := ∃ k, k < 4 ∧ line s k = true ∧ line t k = false
    let down := buttonDown btn s
    let up := buttonUp btn s
    (∀ k, k < 4 → line s k =
      !((!s.joypad.p14 && s.joypad.buttons.getLsbD k) || (!s.joypad.p15 && s.joypad.buttons.getLsbD (4 + k)))) ∧
    (line s 4 = s.joypad.p14 ∧ line s 5 = s.joypad.p15 ∧ line s 6 = true ∧ line s 7 = true) ∧
    down.joypad = { s.joypad with buttons := s.joypad.buttons ||| btn.mask } ∧
    (Falls down → down = { s with joypad := down.joypad, ifReg := s.ifReg ||| 0b10000#5, cpu := { s.cpu with
      runState := if s.cpu.runState = .stopped then .running else s.cpu.runState } }) ∧
    (¬ Falls down → down = { s with joypad := down.joypad }) ∧
    up = { s with joypad := { s.joypad with buttons := s.joypad.buttons &&& ~~~btn.mask } } ∧ ¬ Falls up ∧
    (s.joypad.buttons &&& btn.mask ≠ 0 → down = s) ∧ (s.joypad.buttons &&& btn.mask = 0 → up = s) ∧
    ∃ t, writeByte s 0xFF00#16 v = .ok t ∧
      t = { s with joypad := { s.joypad with p15 := v.getLsbD 5, p14 := v.getLsbD 4 }, ifReg := t.ifReg } ∧
      (Falls t → t.ifReg = s.ifReg ||| 0b10000#5) ∧ (¬ Falls t → t.ifReg = s.ifReg)

/-- R477, R478, R480, R490: time carries through all units: seconds since zero, modulo 512 days. A slice that starts at
`now` advances the live clock, if it is not halted, by the seconds since the last one, and nothing else of the clock; by
none at the time of the last one, which at reset is `WALL_CLOCK(0)`. The RAM window of an `MBC3` with a clock reaches the
clock registers, selected by `ram_select` 8 to 12, at each of its addresses. A read gives the latched value; a write sets
the live register and nothing else (seconds and minutes below 60, hours below 24, the low byte of the day, its bit 8 with
`halt` and `carry`), an out-of-range value is discarded, and no write changes what is read. The live values are latched
exactly by a write of 1 after a write of 0 to `0x6000-0x7FFF`. -/
def Obligations.ClockRules : Prop :=
  (∀ (n : Nat) (r : RtcRegs), r.inRange →
    let total (q : RtcRegs) : Nat := q.sec + 60 * q.min + 3600 * q.hour + 86400 * q.day.toNat
    total (RtcRegs.seconds n r) = (total r + n) % (86400 * 512) ∧
    (RtcRegs.seconds n r).carry = (r.carry || decide (86400 * 512 ≤ total r + n))) ∧
  (∀ (now : Nat) (r : Rtc), r.lastWall ≤ now →
    (r.live.halt = true → r.resume now = { r with lastWall := now }) ∧
    (r.live.halt = false → r.resume now =
      { r with live := RtcRegs.seconds (now - r.lastWall) r.live, lastWall := now })) ∧
  (∀ r : Rtc, r.resume r.lastWall = r) ∧
  (∀ (color : Bool) (wall : Nat), (Reset.postBoot color wall).rtc.lastWall = wall) ∧
  (∀ (s : State) (a : Word) (v : Byte), s.cart.kind = .mbc3 → s.cart.hasRtc = true →
    (0xA000 ≤ a.toNat → a.toNat < 0xC000 → s.mbc.ramEnabled = true →
      readByte s a = .ok (readWindow s (a.toNat - 0xA000)) ∧ writeByte s a v = .ok (writeWindow s (a.toNat - 0xA000) v) ∧
      (s.mbc.ramSelect = 0x8 → window s (a.toNat - 0xA000) = .seconds) ∧
      (s.mbc.ramSelect = 0x9 → window s (a.toNat - 0xA000) = .minutes) ∧
      (s.mbc.ramSelect = 0xA → window s (a.toNat - 0xA000) = .hours) ∧
      (s.mbc.ramSelect = 0xB → window s (a.toNat - 0xA000) = .dayLow) ∧
      (s.mbc.ramSelect = 0xC → window s (a.toNat - 0xA000) = .dayHigh)) ∧
    (0x6000 ≤ a.toNat → a.toNat < 0x8000 → writeByte s a v = .ok { s with rtc := writeLatch v s.rtc })) ∧
  (∀ (s : State) (off : Nat) (v : Byte),
    let live := s.rtc.live
    let withLive (r : RtcRegs) : State := { s with rtc := { s.rtc with live := r } }
    (window s off = .seconds → readWindow s off = BitVec.ofNat 8 s.rtc.latched.sec ∧
      (v.toNat < 60 → writeWindow s off v = withLive { live with sec := v.toNat }) ∧
      (60 ≤ v.toNat → writeWindow s off v = s)) ∧
    (window s off = .minutes → readWindow s off = BitVec.ofNat 8 s.rtc.latched.min ∧
      (v.toNat < 60 → writeWindow s off v = withLive { live with min := v.toNat }) ∧
      (60 ≤ v.toNat → writeWindow s off v = s)) ∧
    (window s off = .hours → readWindow s off = BitVec.ofNat 8 s.rtc.latched.hour ∧
      (v.toNat < 24 → writeWindow s off v = withLive { live with hour := v.toNat }) ∧
      (24 ≤ v.toNat → writeWindow s off v = s)) ∧
    (window s off = .dayLow → (readWindow s off).toNat = s.rtc.latched.day.toNat % 256 ∧
      ∃ d, writeWindow s off v = withLive { live with day := d } ∧
        d.toNat = 256 * (live.day.toNat / 256) + v.toNat) ∧
    (window s off = .dayHigh → readWindow s off = BitVec.ofBool s.rtc.latched.carry ++ BitVec.ofBool s.rtc.latched.halt ++
        0b00000#5 ++ BitVec.ofBool (s.rtc.latched.day.getLsbD 8) ∧
      ∃ d, writeWindow s off v = withLive { live with day := d, halt := v.getLsbD 6, carry := v.getLsbD 7 } ∧
        d.toNat = 256 * (v.toNat % 2) + live.day.toNat % 256) ∧
    (window s off ∈ [.seconds, .minutes, .hours, .dayLow, .dayHigh] →
      readWindow (writeWindow s off v) off = readWindow s off)) ∧
  (∀ (r : Rtc) (v : Byte),
    (r.latchPrev = 0x00 ∧ v = 0x01 → (writeLatch v r).latched = r.live) ∧
    (¬ (r.latchPrev = 0x00 ∧ v = 0x01) → (writeLatch v r).latched = r.latched) ∧
    (writeLatch v r).live = r.live ∧ (writeLatch v r).latchPrev = v)

/-- R522, R505, R511: power off clears every register, silences the output, keeps wave RAM and, in monochrome mode,
the length counters, and color mode then ignores writes; a trigger of channel 1 with sweep shift 0 enables it exactly
when its DAC is on, whatever the frequency. -/
def Obligations.SoundRules : Prop :=
  (∀ (color : Bool) (a : Apu), a.power = true →
    let b := a.writeMaster color 0x00
    b.readMaster = 0x70 ∧ b.mix = (0, 0) ∧ b.waveRam = a.waveRam ∧
    (∀ p ∈ [(SoundReg.nr10, 0x80#8), (.nr11, 0x3F#8), (.nr12, 0x00#8), (.nr13, 0xFF#8), (.nr14, 0xBF#8), (.nr21, 0x3F#8),
      (.nr22, 0x00#8), (.nr23, 0xFF#8), (.nr24, 0xBF#8), (.nr30, 0x7F#8), (.nr31, 0xFF#8), (.nr32, 0x9F#8),
      (.nr33, 0xFF#8), (.nr34, 0xBF#8), (.nr41, 0xFF#8), (.nr42, 0x00#8), (.nr43, 0x00#8), (.nr44, 0xBF#8),
      (.nr50, 0x00#8), (.nr51, 0x00#8)], b.read p.1 = p.2) ∧
    (color = false → b.ch1.len = a.ch1.len ∧ b.ch2.len = a.ch2.len ∧ b.ch3.len = a.ch3.len ∧ b.ch4.len = a.ch4.len) ∧
    (∀ r v, color = true → b.write color r v = b)) ∧
  (∀ (color : Bool) (a : Apu) (v : Byte), a.power = true → a.sweep.shift = 0 → v.getLsbD 7 = true →
    (a.write color .nr14 v).ch1.on = (a.ch1.on || a.ch1.nrx2 &&& 0xF8 != 0))
end

