-- ==== Sys2Proof/Laws/State.lean ====
section
/-! SUPPORT. One lemma for each field of the state and each update: what an update leaves as it was, and what it
sets. No later proof unfolds a record update. -/

namespace Sys2Proof.Machine

@[simp] theorem setReg_fault (r : Reg8) (v : Byte) (s : State) : (setReg r v s).fault = s.fault := by cases r <;> rfl
@[simp] theorem setReg_clock (r : Reg8) (v : Byte) (s : State) : (setReg r v s).clock = s.clock := by cases r <;> rfl
@[simp] theorem setReg_ifReg (r : Reg8) (v : Byte) (s : State) : (setReg r v s).ifReg = s.ifReg := by cases r <;> rfl
@[simp] theorem setReg_ieReg (r : Reg8) (v : Byte) (s : State) : (setReg r v s).ieReg = s.ieReg := by cases r <;> rfl
@[simp] theorem setReg_timer (r : Reg8) (v : Byte) (s : State) : (setReg r v s).timer = s.timer := by cases r <;> rfl
@[simp] theorem setReg_key1Armed (r : Reg8) (v : Byte) (s : State) : (setReg r v s).key1Armed = s.key1Armed := by cases r <;> rfl
@[simp] theorem setReg_serial (r : Reg8) (v : Byte) (s : State) : (setReg r v s).serial = s.serial := by cases r <;> rfl
@[simp] theorem setReg_joypad (r : Reg8) (v : Byte) (s : State) : (setReg r v s).joypad = s.joypad := by cases r <;> rfl
@[simp] theorem setReg_bus (r : Reg8) (v : Byte) (s : State) : (setReg r v s).bus = s.bus := by cases r <;> rfl
@[simp] theorem setReg_vram (r : Reg8) (v : Byte) (s : State) : (setReg r v s).vram = s.vram := by cases r <;> rfl
@[simp] theorem setReg_wram (r : Reg8) (v : Byte) (s : State) : (setReg r v s).wram = s.wram := by cases r <;> rfl
@[simp] theorem setReg_oam (r : Reg8) (v : Byte) (s : State) : (setReg r v s).oam = s.oam := by cases r <;> rfl
@[simp] theorem setReg_hram (r : Reg8) (v : Byte) (s : State) : (setReg r v s).hram = s.hram := by cases r <;> rfl
@[simp] theorem setReg_ppu (r : Reg8) (v : Byte) (s : State) : (setReg r v s).ppu = s.ppu := by cases r <;> rfl
@[simp] theorem setReg_apu (r : Reg8) (v : Byte) (s : State) : (setReg r v s).apu = s.apu := by cases r <;> rfl
@[simp] theorem setReg_cart (r : Reg8) (v : Byte) (s : State) : (setReg r v s).cart = s.cart := by cases r <;> rfl
@[simp] theorem setReg_mbc (r : Reg8) (v : Byte) (s : State) : (setReg r v s).mbc = s.mbc := by cases r <;> rfl
@[simp] theorem setReg_cram (r : Reg8) (v : Byte) (s : State) : (setReg r v s).cram = s.cram := by cases r <;> rfl
@[simp] theorem setReg_rtc (r : Reg8) (v : Byte) (s : State) : (setReg r v s).rtc = s.rtc := by cases r <;> rfl
@[simp] theorem setReg_params (r : Reg8) (v : Byte) (s : State) : (setReg r v s).params = s.params := by cases r <;> rfl
@[simp] theorem setReg_cpu_zf (r : Reg8) (v : Byte) (s : State) : (setReg r v s).cpu.zf = s.cpu.zf := by cases r <;> rfl
@[simp] theorem setReg_cpu_nf (r : Reg8) (v : Byte) (s : State) : (setReg r v s).cpu.nf = s.cpu.nf := by cases r <;> rfl
@[simp] theorem setReg_cpu_hf (r : Reg8) (v : Byte) (s : State) : (setReg r v s).cpu.hf = s.cpu.hf := by cases r <;> rfl
@[simp] theorem setReg_cpu_cf (r : Reg8) (v : Byte) (s : State) : (setReg r v s).cpu.cf = s.cpu.cf := by cases r <;> rfl
@[simp] theorem setReg_cpu_sp (r : Reg8) (v : Byte) (s : State) : (setReg r v s).cpu.sp = s.cpu.sp := by cases r <;> rfl
@[simp] theorem setReg_cpu_pc (r : Reg8) (v : Byte) (s : State) : (setReg r v s).cpu.pc = s.cpu.pc := by cases r <;> rfl
@[simp] theorem setReg_cpu_ime (r : Reg8) (v : Byte) (s : State) : (setReg r v s).cpu.ime = s.cpu.ime := by cases r <;> rfl
@[simp] theorem setReg_cpu_imePending (r : Reg8) (v : Byte) (s : State) : (setReg r v s).cpu.imePending = s.cpu.imePending := by cases r <;> rfl
@[simp] theorem setReg_cpu_runState (r : Reg8) (v : Byte) (s : State) : (setReg r v s).cpu.runState = s.cpu.runState := by cases r <;> rfl
@[simp] theorem setReg_cpu_haltRepeat (r : Reg8) (v : Byte) (s : State) : (setReg r v s).cpu.haltRepeat = s.cpu.haltRepeat := by cases r <;> rfl
@[simp] theorem setReg_cpu_speedShift (r : Reg8) (v : Byte) (s : State) : (setReg r v s).cpu.speedShift = s.cpu.speedShift := by cases r <;> rfl
@[simp] theorem setFlags_fault (f : Flags) (s : State) : (setFlags f s).fault = s.fault := rfl
@[simp] theorem setFlags_clock (f : Flags) (s : State) : (setFlags f s).clock = s.clock := rfl
@[simp] theorem setFlags_ifReg (f : Flags) (s : State) : (setFlags f s).ifReg = s.ifReg := rfl
@[simp] theorem setFlags_ieReg (f : Flags) (s : State) : (setFlags f s).ieReg = s.ieReg := rfl
@[simp] theorem setFlags_timer (f : Flags) (s : State) : (setFlags f s).timer = s.timer := rfl
@[simp] theorem setFlags_key1Armed (f : Flags) (s : State) : (setFlags f s).key1Armed = s.key1Armed := rfl
@[simp] theorem setFlags_serial (f : Flags) (s : State) : (setFlags f s).serial = s.serial := rfl
@[simp] theorem setFlags_joypad (f : Flags) (s : State) : (setFlags f s).joypad = s.joypad := rfl
@[simp] theorem setFlags_bus (f : Flags) (s : State) : (setFlags f s).bus = s.bus := rfl
@[simp] theorem setFlags_vram (f : Flags) (s : State) : (setFlags f s).vram = s.vram := rfl
@[simp] theorem setFlags_wram (f : Flags) (s : State) : (setFlags f s).wram = s.wram := rfl
@[simp] theorem setFlags_oam (f : Flags) (s : State) : (setFlags f s).oam = s.oam := rfl
@[simp] theorem setFlags_hram (f : Flags) (s : State) : (setFlags f s).hram = s.hram := rfl
@[simp] theorem setFlags_ppu (f : Flags) (s : State) : (setFlags f s).ppu = s.ppu := rfl
@[simp] theorem setFlags_apu (f : Flags) (s : State) : (setFlags f s).apu = s.apu := rfl
@[simp] theorem setFlags_cart (f : Flags) (s : State) : (setFlags f s).cart = s.cart := rfl
@[simp] theorem setFlags_mbc (f : Flags) (s : State) : (setFlags f s).mbc = s.mbc := rfl
@[simp] theorem setFlags_cram (f : Flags) (s : State) : (setFlags f s).cram = s.cram := rfl
@[simp] theorem setFlags_rtc (f : Flags) (s : State) : (setFlags f s).rtc = s.rtc := rfl
@[simp] theorem setFlags_params (f : Flags) (s : State) : (setFlags f s).params = s.params := rfl
@[simp] theorem setFlags_cpu_a (f : Flags) (s : State) : (setFlags f s).cpu.a = s.cpu.a := rfl
@[simp] theorem setFlags_cpu_b (f : Flags) (s : State) : (setFlags f s).cpu.b = s.cpu.b := rfl
@[simp] theorem setFlags_cpu_c (f : Flags) (s : State) : (setFlags f s).cpu.c = s.cpu.c := rfl
@[simp] theorem setFlags_cpu_d (f : Flags) (s : State) : (setFlags f s).cpu.d = s.cpu.d := rfl
@[simp] theorem setFlags_cpu_e (f : Flags) (s : State) : (setFlags f s).cpu.e = s.cpu.e := rfl
@[simp] theorem setFlags_cpu_h (f : Flags) (s : State) : (setFlags f s).cpu.h = s.cpu.h := rfl
@[simp] theorem setFlags_cpu_l (f : Flags) (s : State) : (setFlags f s).cpu.l = s.cpu.l := rfl
@[simp] theorem setFlags_cpu_sp (f : Flags) (s : State) : (setFlags f s).cpu.sp = s.cpu.sp := rfl
@[simp] theorem setFlags_cpu_pc (f : Flags) (s : State) : (setFlags f s).cpu.pc = s.cpu.pc := rfl
@[simp] theorem setFlags_cpu_ime (f : Flags) (s : State) : (setFlags f s).cpu.ime = s.cpu.ime := rfl
@[simp] theorem setFlags_cpu_imePending (f : Flags) (s : State) : (setFlags f s).cpu.imePending = s.cpu.imePending := rfl
@[simp] theorem setFlags_cpu_runState (f : Flags) (s : State) : (setFlags f s).cpu.runState = s.cpu.runState := rfl
@[simp] theorem setFlags_cpu_haltRepeat (f : Flags) (s : State) : (setFlags f s).cpu.haltRepeat = s.cpu.haltRepeat := rfl
@[simp] theorem setFlags_cpu_speedShift (f : Flags) (s : State) : (setFlags f s).cpu.speedShift = s.cpu.speedShift := rfl
@[simp] theorem setFlags_cpu_zf (f : Flags) (s : State) : (setFlags f s).cpu.zf = f.z := rfl
@[simp] theorem setFlags_cpu_nf (f : Flags) (s : State) : (setFlags f s).cpu.nf = f.n := rfl
@[simp] theorem setFlags_cpu_hf (f : Flags) (s : State) : (setFlags f s).cpu.hf = f.h := rfl
@[simp] theorem setFlags_cpu_cf (f : Flags) (s : State) : (setFlags f s).cpu.cf = f.c := rfl
@[simp] theorem setBc_fault (v : Word) (s : State) : (setBc v s).fault = s.fault := rfl
@[simp] theorem setBc_clock (v : Word) (s : State) : (setBc v s).clock = s.clock := rfl
@[simp] theorem setBc_ifReg (v : Word) (s : State) : (setBc v s).ifReg = s.ifReg := rfl
@[simp] theorem setBc_ieReg (v : Word) (s : State) : (setBc v s).ieReg = s.ieReg := rfl
@[simp] theorem setBc_timer (v : Word) (s : State) : (setBc v s).timer = s.timer := rfl
@[simp] theorem setBc_key1Armed (v : Word) (s : State) : (setBc v s).key1Armed = s.key1Armed := rfl
@[simp] theorem setBc_serial (v : Word) (s : State) : (setBc v s).serial = s.serial := rfl
@[simp] theorem setBc_joypad (v : Word) (s : State) : (setBc v s).joypad = s.joypad := rfl
@[simp] theorem setBc_bus (v : Word) (s : State) : (setBc v s).bus = s.bus := rfl
@[simp] theorem setBc_vram (v : Word) (s : State) : (setBc v s).vram = s.vram := rfl
@[simp] theorem setBc_wram (v : Word) (s : State) : (setBc v s).wram = s.wram := rfl
@[simp] theorem setBc_oam (v : Word) (s : State) : (setBc v s).oam = s.oam := rfl
@[simp] theorem setBc_hram (v : Word) (s : State) : (setBc v s).hram = s.hram := rfl
@[simp] theorem setBc_ppu (v : Word) (s : State) : (setBc v s).ppu = s.ppu := rfl
@[simp] theorem setBc_apu (v : Word) (s : State) : (setBc v s).apu = s.apu := rfl
@[simp] theorem setBc_cart (v : Word) (s : State) : (setBc v s).cart = s.cart := rfl
@[simp] theorem setBc_mbc (v : Word) (s : State) : (setBc v s).mbc = s.mbc := rfl
@[simp] theorem setBc_cram (v : Word) (s : State) : (setBc v s).cram = s.cram := rfl
@[simp] theorem setBc_rtc (v : Word) (s : State) : (setBc v s).rtc = s.rtc := rfl
@[simp] theorem setBc_params (v : Word) (s : State) : (setBc v s).params = s.params := rfl
@[simp] theorem setBc_cpu_a (v : Word) (s : State) : (setBc v s).cpu.a = s.cpu.a := rfl
@[simp] theorem setBc_cpu_d (v : Word) (s : State) : (setBc v s).cpu.d = s.cpu.d := rfl
@[simp] theorem setBc_cpu_e (v : Word) (s : State) : (setBc v s).cpu.e = s.cpu.e := rfl
@[simp] theorem setBc_cpu_h (v : Word) (s : State) : (setBc v s).cpu.h = s.cpu.h := rfl
@[simp] theorem setBc_cpu_l (v : Word) (s : State) : (setBc v s).cpu.l = s.cpu.l := rfl
@[simp] theorem setBc_cpu_zf (v : Word) (s : State) : (setBc v s).cpu.zf = s.cpu.zf := rfl
@[simp] theorem setBc_cpu_nf (v : Word) (s : State) : (setBc v s).cpu.nf = s.cpu.nf := rfl
@[simp] theorem setBc_cpu_hf (v : Word) (s : State) : (setBc v s).cpu.hf = s.cpu.hf := rfl
@[simp] theorem setBc_cpu_cf (v : Word) (s : State) : (setBc v s).cpu.cf = s.cpu.cf := rfl
@[simp] theorem setBc_cpu_sp (v : Word) (s : State) : (setBc v s).cpu.sp = s.cpu.sp := rfl
@[simp] theorem setBc_cpu_pc (v : Word) (s : State) : (setBc v s).cpu.pc = s.cpu.pc := rfl
@[simp] theorem setBc_cpu_ime (v : Word) (s : State) : (setBc v s).cpu.ime = s.cpu.ime := rfl
@[simp] theorem setBc_cpu_imePending (v : Word) (s : State) : (setBc v s).cpu.imePending = s.cpu.imePending := rfl
@[simp] theorem setBc_cpu_runState (v : Word) (s : State) : (setBc v s).cpu.runState = s.cpu.runState := rfl
@[simp] theorem setBc_cpu_haltRepeat (v : Word) (s : State) : (setBc v s).cpu.haltRepeat = s.cpu.haltRepeat := rfl
@[simp] theorem setBc_cpu_speedShift (v : Word) (s : State) : (setBc v s).cpu.speedShift = s.cpu.speedShift := rfl
@[simp] theorem setBc_cpu_b (v : Word) (s : State) : (setBc v s).cpu.b = hiByte v := rfl
@[simp] theorem setBc_cpu_c (v : Word) (s : State) : (setBc v s).cpu.c = loByte v := rfl
@[simp] theorem setDe_fault (v : Word) (s : State) : (setDe v s).fault = s.fault := rfl
@[simp] theorem setDe_clock (v : Word) (s : State) : (setDe v s).clock = s.clock := rfl
@[simp] theorem setDe_ifReg (v : Word) (s : State) : (setDe v s).ifReg = s.ifReg := rfl
@[simp] theorem setDe_ieReg (v : Word) (s : State) : (setDe v s).ieReg = s.ieReg := rfl
@[simp] theorem setDe_timer (v : Word) (s : State) : (setDe v s).timer = s.timer := rfl
@[simp] theorem setDe_key1Armed (v : Word) (s : State) : (setDe v s).key1Armed = s.key1Armed := rfl
@[simp] theorem setDe_serial (v : Word) (s : State) : (setDe v s).serial = s.serial := rfl
@[simp] theorem setDe_joypad (v : Word) (s : State) : (setDe v s).joypad = s.joypad := rfl
@[simp] theorem setDe_bus (v : Word) (s : State) : (setDe v s).bus = s.bus := rfl
@[simp] theorem setDe_vram (v : Word) (s : State) : (setDe v s).vram = s.vram := rfl
@[simp] theorem setDe_wram (v : Word) (s : State) : (setDe v s).wram = s.wram := rfl
@[simp] theorem setDe_oam (v : Word) (s : State) : (setDe v s).oam = s.oam := rfl
@[simp] theorem setDe_hram (v : Word) (s : State) : (setDe v s).hram = s.hram := rfl
@[simp] theorem setDe_ppu (v : Word) (s : State) : (setDe v s).ppu = s.ppu := rfl
@[simp] theorem setDe_apu (v : Word) (s : State) : (setDe v s).apu = s.apu := rfl
@[simp] theorem setDe_cart (v : Word) (s : State) : (setDe v s).cart = s.cart := rfl
@[simp] theorem setDe_mbc (v : Word) (s : State) : (setDe v s).mbc = s.mbc := rfl
@[simp] theorem setDe_cram (v : Word) (s : State) : (setDe v s).cram = s.cram := rfl
@[simp] theorem setDe_rtc (v : Word) (s : State) : (setDe v s).rtc = s.rtc := rfl
@[simp] theorem setDe_params (v : Word) (s : State) : (setDe v s).params = s.params := rfl
@[simp] theorem setDe_cpu_a (v : Word) (s : State) : (setDe v s).cpu.a = s.cpu.a := rfl
@[simp] theorem setDe_cpu_b (v : Word) (s : State) : (setDe v s).cpu.b = s.cpu.b := rfl
@[simp] theorem setDe_cpu_c (v : Word) (s : State) : (setDe v s).cpu.c = s.cpu.c := rfl
@[simp] theorem setDe_cpu_h (v : Word) (s : State) : (setDe v s).cpu.h = s.cpu.h := rfl
@[simp] theorem setDe_cpu_l (v : Word) (s : State) : (setDe v s).cpu.l = s.cpu.l := rfl
@[simp] theorem setDe_cpu_zf (v : Word) (s : State) : (setDe v s).cpu.zf = s.cpu.zf := rfl
@[simp] theorem setDe_cpu_nf (v : Word) (s : State) : (setDe v s).cpu.nf = s.cpu.nf := rfl
@[simp] theorem setDe_cpu_hf (v : Word) (s : State) : (setDe v s).cpu.hf = s.cpu.hf := rfl
@[simp] theorem setDe_cpu_cf (v : Word) (s : State) : (setDe v s).cpu.cf = s.cpu.cf := rfl
@[simp] theorem setDe_cpu_sp (v : Word) (s : State) : (setDe v s).cpu.sp = s.cpu.sp := rfl
@[simp] theorem setDe_cpu_pc (v : Word) (s : State) : (setDe v s).cpu.pc = s.cpu.pc := rfl
@[simp] theorem setDe_cpu_ime (v : Word) (s : State) : (setDe v s).cpu.ime = s.cpu.ime := rfl
@[simp] theorem setDe_cpu_imePending (v : Word) (s : State) : (setDe v s).cpu.imePending = s.cpu.imePending := rfl
@[simp] theorem setDe_cpu_runState (v : Word) (s : State) : (setDe v s).cpu.runState = s.cpu.runState := rfl
@[simp] theorem setDe_cpu_haltRepeat (v : Word) (s : State) : (setDe v s).cpu.haltRepeat = s.cpu.haltRepeat := rfl
@[simp] theorem setDe_cpu_speedShift (v : Word) (s : State) : (setDe v s).cpu.speedShift = s.cpu.speedShift := rfl
@[simp] theorem setDe_cpu_d (v : Word) (s : State) : (setDe v s).cpu.d = hiByte v := rfl
@[simp] theorem setDe_cpu_e (v : Word) (s : State) : (setDe v s).cpu.e = loByte v := rfl
@[simp] theorem setHl_fault (v : Word) (s : State) : (setHl v s).fault = s.fault := rfl
@[simp] theorem setHl_clock (v : Word) (s : State) : (setHl v s).clock = s.clock := rfl
@[simp] theorem setHl_ifReg (v : Word) (s : State) : (setHl v s).ifReg = s.ifReg := rfl
@[simp] theorem setHl_ieReg (v : Word) (s : State) : (setHl v s).ieReg = s.ieReg := rfl
@[simp] theorem setHl_timer (v : Word) (s : State) : (setHl v s).timer = s.timer := rfl
@[simp] theorem setHl_key1Armed (v : Word) (s : State) : (setHl v s).key1Armed = s.key1Armed := rfl
@[simp] theorem setHl_serial (v : Word) (s : State) : (setHl v s).serial = s.serial := rfl
@[simp] theorem setHl_joypad (v : Word) (s : State) : (setHl v s).joypad = s.joypad := rfl
@[simp] theorem setHl_bus (v : Word) (s : State) : (setHl v s).bus = s.bus := rfl
@[simp] theorem setHl_vram (v : Word) (s : State) : (setHl v s).vram = s.vram := rfl
@[simp] theorem setHl_wram (v : Word) (s : State) : (setHl v s).wram = s.wram := rfl
@[simp] theorem setHl_oam (v : Word) (s : State) : (setHl v s).oam = s.oam := rfl
@[simp] theorem setHl_hram (v : Word) (s : State) : (setHl v s).hram = s.hram := rfl
@[simp] theorem setHl_ppu (v : Word) (s : State) : (setHl v s).ppu = s.ppu := rfl
@[simp] theorem setHl_apu (v : Word) (s : State) : (setHl v s).apu = s.apu := rfl
@[simp] theorem setHl_cart (v : Word) (s : State) : (setHl v s).cart = s.cart := rfl
@[simp] theorem setHl_mbc (v : Word) (s : State) : (setHl v s).mbc = s.mbc := rfl
@[simp] theorem setHl_cram (v : Word) (s : State) : (setHl v s).cram = s.cram := rfl
@[simp] theorem setHl_rtc (v : Word) (s : State) : (setHl v s).rtc = s.rtc := rfl
@[simp] theorem setHl_params (v : Word) (s : State) : (setHl v s).params = s.params := rfl
@[simp] theorem setHl_cpu_a (v : Word) (s : State) : (setHl v s).cpu.a = s.cpu.a := rfl
@[simp] theorem setHl_cpu_b (v : Word) (s : State) : (setHl v s).cpu.b = s.cpu.b := rfl
@[simp] theorem setHl_cpu_c (v : Word) (s : State) : (setHl v s).cpu.c = s.cpu.c := rfl
@[simp] theorem setHl_cpu_d (v : Word) (s : State) : (setHl v s).cpu.d = s.cpu.d := rfl
@[simp] theorem setHl_cpu_e (v : Word) (s : State) : (setHl v s).cpu.e = s.cpu.e := rfl
@[simp] theorem setHl_cpu_zf (v : Word) (s : State) : (setHl v s).cpu.zf = s.cpu.zf := rfl
@[simp] theorem setHl_cpu_nf (v : Word) (s : State) : (setHl v s).cpu.nf = s.cpu.nf := rfl
@[simp] theorem setHl_cpu_hf (v : Word) (s : State) : (setHl v s).cpu.hf = s.cpu.hf := rfl
@[simp] theorem setHl_cpu_cf (v : Word) (s : State) : (setHl v s).cpu.cf = s.cpu.cf := rfl
@[simp] theorem setHl_cpu_sp (v : Word) (s : State) : (setHl v s).cpu.sp = s.cpu.sp := rfl
@[simp] theorem setHl_cpu_pc (v : Word) (s : State) : (setHl v s).cpu.pc = s.cpu.pc := rfl
@[simp] theorem setHl_cpu_ime (v : Word) (s : State) : (setHl v s).cpu.ime = s.cpu.ime := rfl
@[simp] theorem setHl_cpu_imePending (v : Word) (s : State) : (setHl v s).cpu.imePending = s.cpu.imePending := rfl
@[simp] theorem setHl_cpu_runState (v : Word) (s : State) : (setHl v s).cpu.runState = s.cpu.runState := rfl
@[simp] theorem setHl_cpu_haltRepeat (v : Word) (s : State) : (setHl v s).cpu.haltRepeat = s.cpu.haltRepeat := rfl
@[simp] theorem setHl_cpu_speedShift (v : Word) (s : State) : (setHl v s).cpu.speedShift = s.cpu.speedShift := rfl
@[simp] theorem setHl_cpu_h (v : Word) (s : State) : (setHl v s).cpu.h = hiByte v := rfl
@[simp] theorem setHl_cpu_l (v : Word) (s : State) : (setHl v s).cpu.l = loByte v := rfl
@[simp] theorem setSp_fault (v : Word) (s : State) : (setSp v s).fault = s.fault := rfl
@[simp] theorem setSp_clock (v : Word) (s : State) : (setSp v s).clock = s.clock := rfl
@[simp] theorem setSp_ifReg (v : Word) (s : State) : (setSp v s).ifReg = s.ifReg := rfl
@[simp] theorem setSp_ieReg (v : Word) (s : State) : (setSp v s).ieReg = s.ieReg := rfl
@[simp] theorem setSp_timer (v : Word) (s : State) : (setSp v s).timer = s.timer := rfl
@[simp] theorem setSp_key1Armed (v : Word) (s : State) : (setSp v s).key1Armed = s.key1Armed := rfl
@[simp] theorem setSp_serial (v : Word) (s : State) : (setSp v s).serial = s.serial := rfl
@[simp] theorem setSp_joypad (v : Word) (s : State) : (setSp v s).joypad = s.joypad := rfl
@[simp] theorem setSp_bus (v : Word) (s : State) : (setSp v s).bus = s.bus := rfl
@[simp] theorem setSp_vram (v : Word) (s : State) : (setSp v s).vram = s.vram := rfl
@[simp] theorem setSp_wram (v : Word) (s : State) : (setSp v s).wram = s.wram := rfl
@[simp] theorem setSp_oam (v : Word) (s : State) : (setSp v s).oam = s.oam := rfl
@[simp] theorem setSp_hram (v : Word) (s : State) : (setSp v s).hram = s.hram := rfl
@[simp] theorem setSp_ppu (v : Word) (s : State) : (setSp v s).ppu = s.ppu := rfl
@[simp] theorem setSp_apu (v : Word) (s : State) : (setSp v s).apu = s.apu := rfl
@[simp] theorem setSp_cart (v : Word) (s : State) : (setSp v s).cart = s.cart := rfl
@[simp] theorem setSp_mbc (v : Word) (s : State) : (setSp v s).mbc = s.mbc := rfl
@[simp] theorem setSp_cram (v : Word) (s : State) : (setSp v s).cram = s.cram := rfl
@[simp] theorem setSp_rtc (v : Word) (s : State) : (setSp v s).rtc = s.rtc := rfl
@[simp] theorem setSp_params (v : Word) (s : State) : (setSp v s).params = s.params := rfl
@[simp] theorem setSp_cpu_a (v : Word) (s : State) : (setSp v s).cpu.a = s.cpu.a := rfl
@[simp] theorem setSp_cpu_b (v : Word) (s : State) : (setSp v s).cpu.b = s.cpu.b := rfl
@[simp] theorem setSp_cpu_c (v : Word) (s : State) : (setSp v s).cpu.c = s.cpu.c := rfl
@[simp] theorem setSp_cpu_d (v : Word) (s : State) : (setSp v s).cpu.d = s.cpu.d := rfl
@[simp] theorem setSp_cpu_e (v : Word) (s : State) : (setSp v s).cpu.e = s.cpu.e := rfl
@[simp] theorem setSp_cpu_h (v : Word) (s : State) : (setSp v s).cpu.h = s.cpu.h := rfl
@[simp] theorem setSp_cpu_l (v : Word) (s : State) : (setSp v s).cpu.l = s.cpu.l := rfl
@[simp] theorem setSp_cpu_zf (v : Word) (s : State) : (setSp v s).cpu.zf = s.cpu.zf := rfl
@[simp] theorem setSp_cpu_nf (v : Word) (s : State) : (setSp v s).cpu.nf = s.cpu.nf := rfl
@[simp] theorem setSp_cpu_hf (v : Word) (s : State) : (setSp v s).cpu.hf = s.cpu.hf := rfl
@[simp] theorem setSp_cpu_cf (v : Word) (s : State) : (setSp v s).cpu.cf = s.cpu.cf := rfl
@[simp] theorem setSp_cpu_pc (v : Word) (s : State) : (setSp v s).cpu.pc = s.cpu.pc := rfl
@[simp] theorem setSp_cpu_ime (v : Word) (s : State) : (setSp v s).cpu.ime = s.cpu.ime := rfl
@[simp] theorem setSp_cpu_imePending (v : Word) (s : State) : (setSp v s).cpu.imePending = s.cpu.imePending := rfl
@[simp] theorem setSp_cpu_runState (v : Word) (s : State) : (setSp v s).cpu.runState = s.cpu.runState := rfl
@[simp] theorem setSp_cpu_haltRepeat (v : Word) (s : State) : (setSp v s).cpu.haltRepeat = s.cpu.haltRepeat := rfl
@[simp] theorem setSp_cpu_speedShift (v : Word) (s : State) : (setSp v s).cpu.speedShift = s.cpu.speedShift := rfl
@[simp] theorem setSp_cpu_sp (v : Word) (s : State) : (setSp v s).cpu.sp = v := rfl
@[simp] theorem setPc_fault (v : Word) (s : State) : (setPc v s).fault = s.fault := rfl
@[simp] theorem setPc_clock (v : Word) (s : State) : (setPc v s).clock = s.clock := rfl
@[simp] theorem setPc_ifReg (v : Word) (s : State) : (setPc v s).ifReg = s.ifReg := rfl
@[simp] theorem setPc_ieReg (v : Word) (s : State) : (setPc v s).ieReg = s.ieReg := rfl
@[simp] theorem setPc_timer (v : Word) (s : State) : (setPc v s).timer = s.timer := rfl
@[simp] theorem setPc_key1Armed (v : Word) (s : State) : (setPc v s).key1Armed = s.key1Armed := rfl
@[simp] theorem setPc_serial (v : Word) (s : State) : (setPc v s).serial = s.serial := rfl
@[simp] theorem setPc_joypad (v : Word) (s : State) : (setPc v s).joypad = s.joypad := rfl
@[simp] theorem setPc_bus (v : Word) (s : State) : (setPc v s).bus = s.bus := rfl
@[simp] theorem setPc_vram (v : Word) (s : State) : (setPc v s).vram = s.vram := rfl
@[simp] theorem setPc_wram (v : Word) (s : State) : (setPc v s).wram = s.wram := rfl
@[simp] theorem setPc_oam (v : Word) (s : State) : (setPc v s).oam = s.oam := rfl
@[simp] theorem setPc_hram (v : Word) (s : State) : (setPc v s).hram = s.hram := rfl
@[simp] theorem setPc_ppu (v : Word) (s : State) : (setPc v s).ppu = s.ppu := rfl
@[simp] theorem setPc_apu (v : Word) (s : State) : (setPc v s).apu = s.apu := rfl
@[simp] theorem setPc_cart (v : Word) (s : State) : (setPc v s).cart = s.cart := rfl
@[simp] theorem setPc_mbc (v : Word) (s : State) : (setPc v s).mbc = s.mbc := rfl
@[simp] theorem setPc_cram (v : Word) (s : State) : (setPc v s).cram = s.cram := rfl
@[simp] theorem setPc_rtc (v : Word) (s : State) : (setPc v s).rtc = s.rtc := rfl
@[simp] theorem setPc_params (v : Word) (s : State) : (setPc v s).params = s.params := rfl
@[simp] theorem setPc_cpu_a (v : Word) (s : State) : (setPc v s).cpu.a = s.cpu.a := rfl
@[simp] theorem setPc_cpu_b (v : Word) (s : State) : (setPc v s).cpu.b = s.cpu.b := rfl
@[simp] theorem setPc_cpu_c (v : Word) (s : State) : (setPc v s).cpu.c = s.cpu.c := rfl
@[simp] theorem setPc_cpu_d (v : Word) (s : State) : (setPc v s).cpu.d = s.cpu.d := rfl
@[simp] theorem setPc_cpu_e (v : Word) (s : State) : (setPc v s).cpu.e = s.cpu.e := rfl
@[simp] theorem setPc_cpu_h (v : Word) (s : State) : (setPc v s).cpu.h = s.cpu.h := rfl
@[simp] theorem setPc_cpu_l (v : Word) (s : State) : (setPc v s).cpu.l = s.cpu.l := rfl
@[simp] theorem setPc_cpu_zf (v : Word) (s : State) : (setPc v s).cpu.zf = s.cpu.zf := rfl
@[simp] theorem setPc_cpu_nf (v : Word) (s : State) : (setPc v s).cpu.nf = s.cpu.nf := rfl
@[simp] theorem setPc_cpu_hf (v : Word) (s : State) : (setPc v s).cpu.hf = s.cpu.hf := rfl
@[simp] theorem setPc_cpu_cf (v : Word) (s : State) : (setPc v s).cpu.cf = s.cpu.cf := rfl
@[simp] theorem setPc_cpu_sp (v : Word) (s : State) : (setPc v s).cpu.sp = s.cpu.sp := rfl
@[simp] theorem setPc_cpu_ime (v : Word) (s : State) : (setPc v s).cpu.ime = s.cpu.ime := rfl
@[simp] theorem setPc_cpu_imePending (v : Word) (s : State) : (setPc v s).cpu.imePending = s.cpu.imePending := rfl
@[simp] theorem setPc_cpu_runState (v : Word) (s : State) : (setPc v s).cpu.runState = s.cpu.runState := rfl
@[simp] theorem setPc_cpu_haltRepeat (v : Word) (s : State) : (setPc v s).cpu.haltRepeat = s.cpu.haltRepeat := rfl
@[simp] theorem setPc_cpu_speedShift (v : Word) (s : State) : (setPc v s).cpu.speedShift = s.cpu.speedShift := rfl
@[simp] theorem setPc_cpu_pc (v : Word) (s : State) : (setPc v s).cpu.pc = v := rfl
@[simp] theorem setAf_fault (v : Word) (s : State) : (setAf v s).fault = s.fault := rfl
@[simp] theorem setAf_clock (v : Word) (s : State) : (setAf v s).clock = s.clock := rfl
@[simp] theorem setAf_ifReg (v : Word) (s : State) : (setAf v s).ifReg = s.ifReg := rfl
@[simp] theorem setAf_ieReg (v : Word) (s : State) : (setAf v s).ieReg = s.ieReg := rfl
@[simp] theorem setAf_timer (v : Word) (s : State) : (setAf v s).timer = s.timer := rfl
@[simp] theorem setAf_key1Armed (v : Word) (s : State) : (setAf v s).key1Armed = s.key1Armed := rfl
@[simp] theorem setAf_serial (v : Word) (s : State) : (setAf v s).serial = s.serial := rfl
@[simp] theorem setAf_joypad (v : Word) (s : State) : (setAf v s).joypad = s.joypad := rfl
@[simp] theorem setAf_bus (v : Word) (s : State) : (setAf v s).bus = s.bus := rfl
@[simp] theorem setAf_vram (v : Word) (s : State) : (setAf v s).vram = s.vram := rfl
@[simp] theorem setAf_wram (v : Word) (s : State) : (setAf v s).wram = s.wram := rfl
@[simp] theorem setAf_oam (v : Word) (s : State) : (setAf v s).oam = s.oam := rfl
@[simp] theorem setAf_hram (v : Word) (s : State) : (setAf v s).hram = s.hram := rfl
@[simp] theorem setAf_ppu (v : Word) (s : State) : (setAf v s).ppu = s.ppu := rfl
@[simp] theorem setAf_apu (v : Word) (s : State) : (setAf v s).apu = s.apu := rfl
@[simp] theorem setAf_cart (v : Word) (s : State) : (setAf v s).cart = s.cart := rfl
@[simp] theorem setAf_mbc (v : Word) (s : State) : (setAf v s).mbc = s.mbc := rfl
@[simp] theorem setAf_cram (v : Word) (s : State) : (setAf v s).cram = s.cram := rfl
@[simp] theorem setAf_rtc (v : Word) (s : State) : (setAf v s).rtc = s.rtc := rfl
@[simp] theorem setAf_params (v : Word) (s : State) : (setAf v s).params = s.params := rfl
@[simp] theorem setAf_cpu_b (v : Word) (s : State) : (setAf v s).cpu.b = s.cpu.b := rfl
@[simp] theorem setAf_cpu_c (v : Word) (s : State) : (setAf v s).cpu.c = s.cpu.c := rfl
@[simp] theorem setAf_cpu_d (v : Word) (s : State) : (setAf v s).cpu.d = s.cpu.d := rfl
@[simp] theorem setAf_cpu_e (v : Word) (s : State) : (setAf v s).cpu.e = s.cpu.e := rfl
@[simp] theorem setAf_cpu_h (v : Word) (s : State) : (setAf v s).cpu.h = s.cpu.h := rfl
@[simp] theorem setAf_cpu_l (v : Word) (s : State) : (setAf v s).cpu.l = s.cpu.l := rfl
@[simp] theorem setAf_cpu_sp (v : Word) (s : State) : (setAf v s).cpu.sp = s.cpu.sp := rfl
@[simp] theorem setAf_cpu_pc (v : Word) (s : State) : (setAf v s).cpu.pc = s.cpu.pc := rfl
@[simp] theorem setAf_cpu_ime (v : Word) (s : State) : (setAf v s).cpu.ime = s.cpu.ime := rfl
@[simp] theorem setAf_cpu_imePending (v : Word) (s : State) : (setAf v s).cpu.imePending = s.cpu.imePending := rfl
@[simp] theorem setAf_cpu_runState (v : Word) (s : State) : (setAf v s).cpu.runState = s.cpu.runState := rfl
@[simp] theorem setAf_cpu_haltRepeat (v : Word) (s : State) : (setAf v s).cpu.haltRepeat = s.cpu.haltRepeat := rfl
@[simp] theorem setAf_cpu_speedShift (v : Word) (s : State) : (setAf v s).cpu.speedShift = s.cpu.speedShift := rfl
@[simp] theorem setAf_cpu_a (v : Word) (s : State) : (setAf v s).cpu.a = hiByte v := rfl
@[simp] theorem setPair_fault (r : Reg16) (v : Word) (s : State) : (setPair r v s).fault = s.fault := by cases r <;> rfl
@[simp] theorem setPair_clock (r : Reg16) (v : Word) (s : State) : (setPair r v s).clock = s.clock := by cases r <;> rfl
@[simp] theorem setPair_ifReg (r : Reg16) (v : Word) (s : State) : (setPair r v s).ifReg = s.ifReg := by cases r <;> rfl
@[simp] theorem setPair_ieReg (r : Reg16) (v : Word) (s : State) : (setPair r v s).ieReg = s.ieReg := by cases r <;> rfl
@[simp] theorem setPair_timer (r : Reg16) (v : Word) (s : State) : (setPair r v s).timer = s.timer := by cases r <;> rfl
@[simp] theorem setPair_key1Armed (r : Reg16) (v : Word) (s : State) : (setPair r v s).key1Armed = s.key1Armed := by cases r <;> rfl
@[simp] theorem setPair_serial (r : Reg16) (v : Word) (s : State) : (setPair r v s).serial = s.serial := by cases r <;> rfl
@[simp] theorem setPair_joypad (r : Reg16) (v : Word) (s : State) : (setPair r v s).joypad = s.joypad := by cases r <;> rfl
@[simp] theorem setPair_bus (r : Reg16) (v : Word) (s : State) : (setPair r v s).bus = s.bus := by cases r <;> rfl
@[simp] theorem setPair_vram (r : Reg16) (v : Word) (s : State) : (setPair r v s).vram = s.vram := by cases r <;> rfl
@[simp] theorem setPair_wram (r : Reg16) (v : Word) (s : State) : (setPair r v s).wram = s.wram := by cases r <;> rfl
@[simp] theorem setPair_oam (r : Reg16) (v : Word) (s : State) : (setPair r v s).oam = s.oam := by cases r <;> rfl
@[simp] theorem setPair_hram (r : Reg16) (v : Word) (s : State) : (setPair r v s).hram = s.hram := by cases r <;> rfl
@[simp] theorem setPair_ppu (r : Reg16) (v : Word) (s : State) : (setPair r v s).ppu = s.ppu := by cases r <;> rfl
@[simp] theorem setPair_apu (r : Reg16) (v : Word) (s : State) : (setPair r v s).apu = s.apu := by cases r <;> rfl
@[simp] theorem setPair_cart (r : Reg16) (v : Word) (s : State) : (setPair r v s).cart = s.cart := by cases r <;> rfl
@[simp] theorem setPair_mbc (r : Reg16) (v : Word) (s : State) : (setPair r v s).mbc = s.mbc := by cases r <;> rfl
@[simp] theorem setPair_cram (r : Reg16) (v : Word) (s : State) : (setPair r v s).cram = s.cram := by cases r <;> rfl
@[simp] theorem setPair_rtc (r : Reg16) (v : Word) (s : State) : (setPair r v s).rtc = s.rtc := by cases r <;> rfl
@[simp] theorem setPair_params (r : Reg16) (v : Word) (s : State) : (setPair r v s).params = s.params := by cases r <;> rfl
@[simp] theorem setStackPair_fault (r : StackPair) (v : Word) (s : State) : (setStackPair r v s).fault = s.fault := by cases r <;> rfl
@[simp] theorem setStackPair_clock (r : StackPair) (v : Word) (s : State) : (setStackPair r v s).clock = s.clock := by cases r <;> rfl
@[simp] theorem setStackPair_ifReg (r : StackPair) (v : Word) (s : State) : (setStackPair r v s).ifReg = s.ifReg := by cases r <;> rfl
@[simp] theorem setStackPair_ieReg (r : StackPair) (v : Word) (s : State) : (setStackPair r v s).ieReg = s.ieReg := by cases r <;> rfl
@[simp] theorem setStackPair_timer (r : StackPair) (v : Word) (s : State) : (setStackPair r v s).timer = s.timer := by cases r <;> rfl
@[simp] theorem setStackPair_key1Armed (r : StackPair) (v : Word) (s : State) : (setStackPair r v s).key1Armed = s.key1Armed := by cases r <;> rfl
@[simp] theorem setStackPair_serial (r : StackPair) (v : Word) (s : State) : (setStackPair r v s).serial = s.serial := by cases r <;> rfl
@[simp] theorem setStackPair_joypad (r : StackPair) (v : Word) (s : State) : (setStackPair r v s).joypad = s.joypad := by cases r <;> rfl
@[simp] theorem setStackPair_bus (r : StackPair) (v : Word) (s : State) : (setStackPair r v s).bus = s.bus := by cases r <;> rfl
@[simp] theorem setStackPair_vram (r : StackPair) (v : Word) (s : State) : (setStackPair r v s).vram = s.vram := by cases r <;> rfl
@[simp] theorem setStackPair_wram (r : StackPair) (v : Word) (s : State) : (setStackPair r v s).wram = s.wram := by cases r <;> rfl
@[simp] theorem setStackPair_oam (r : StackPair) (v : Word) (s : State) : (setStackPair r v s).oam = s.oam := by cases r <;> rfl
@[simp] theorem setStackPair_hram (r : StackPair) (v : Word) (s : State) : (setStackPair r v s).hram = s.hram := by cases r <;> rfl
@[simp] theorem setStackPair_ppu (r : StackPair) (v : Word) (s : State) : (setStackPair r v s).ppu = s.ppu := by cases r <;> rfl
@[simp] theorem setStackPair_apu (r : StackPair) (v : Word) (s : State) : (setStackPair r v s).apu = s.apu := by cases r <;> rfl
@[simp] theorem setStackPair_cart (r : StackPair) (v : Word) (s : State) : (setStackPair r v s).cart = s.cart := by cases r <;> rfl
@[simp] theorem setStackPair_mbc (r : StackPair) (v : Word) (s : State) : (setStackPair r v s).mbc = s.mbc := by cases r <;> rfl
@[simp] theorem setStackPair_cram (r : StackPair) (v : Word) (s : State) : (setStackPair r v s).cram = s.cram := by cases r <;> rfl
@[simp] theorem setStackPair_rtc (r : StackPair) (v : Word) (s : State) : (setStackPair r v s).rtc = s.rtc := by cases r <;> rfl
@[simp] theorem setStackPair_params (r : StackPair) (v : Word) (s : State) : (setStackPair r v s).params = s.params := by cases r <;> rfl
@[simp] theorem setPpu_cpu (p : Ppu) (s : State) : (setPpu p s).cpu = s.cpu := rfl
@[simp] theorem setPpu_fault (p : Ppu) (s : State) : (setPpu p s).fault = s.fault := rfl
@[simp] theorem setPpu_clock (p : Ppu) (s : State) : (setPpu p s).clock = s.clock := rfl
@[simp] theorem setPpu_ifReg (p : Ppu) (s : State) : (setPpu p s).ifReg = s.ifReg := rfl
@[simp] theorem setPpu_ieReg (p : Ppu) (s : State) : (setPpu p s).ieReg = s.ieReg := rfl
@[simp] theorem setPpu_timer (p : Ppu) (s : State) : (setPpu p s).timer = s.timer := rfl
@[simp] theorem setPpu_key1Armed (p : Ppu) (s : State) : (setPpu p s).key1Armed = s.key1Armed := rfl
@[simp] theorem setPpu_serial (p : Ppu) (s : State) : (setPpu p s).serial = s.serial := rfl
@[simp] theorem setPpu_joypad (p : Ppu) (s : State) : (setPpu p s).joypad = s.joypad := rfl
@[simp] theorem setPpu_bus (p : Ppu) (s : State) : (setPpu p s).bus = s.bus := rfl
@[simp] theorem setPpu_vram (p : Ppu) (s : State) : (setPpu p s).vram = s.vram := rfl
@[simp] theorem setPpu_wram (p : Ppu) (s : State) : (setPpu p s).wram = s.wram := rfl
@[simp] theorem setPpu_oam (p : Ppu) (s : State) : (setPpu p s).oam = s.oam := rfl
@[simp] theorem setPpu_hram (p : Ppu) (s : State) : (setPpu p s).hram = s.hram := rfl
@[simp] theorem setPpu_apu (p : Ppu) (s : State) : (setPpu p s).apu = s.apu := rfl
@[simp] theorem setPpu_cart (p : Ppu) (s : State) : (setPpu p s).cart = s.cart := rfl
@[simp] theorem setPpu_mbc (p : Ppu) (s : State) : (setPpu p s).mbc = s.mbc := rfl
@[simp] theorem setPpu_cram (p : Ppu) (s : State) : (setPpu p s).cram = s.cram := rfl
@[simp] theorem setPpu_rtc (p : Ppu) (s : State) : (setPpu p s).rtc = s.rtc := rfl
@[simp] theorem setPpu_params (p : Ppu) (s : State) : (setPpu p s).params = s.params := rfl
@[simp] theorem setPpu_ppu (p : Ppu) (s : State) : (setPpu p s).ppu = p := rfl
@[simp] theorem setApu_cpu (a : Apu) (s : State) : (setApu a s).cpu = s.cpu := rfl
@[simp] theorem setApu_fault (a : Apu) (s : State) : (setApu a s).fault = s.fault := rfl
@[simp] theorem setApu_clock (a : Apu) (s : State) : (setApu a s).clock = s.clock := rfl
@[simp] theorem setApu_ifReg (a : Apu) (s : State) : (setApu a s).ifReg = s.ifReg := rfl
@[simp] theorem setApu_ieReg (a : Apu) (s : State) : (setApu a s).ieReg = s.ieReg := rfl
@[simp] theorem setApu_timer (a : Apu) (s : State) : (setApu a s).timer = s.timer := rfl
@[simp] theorem setApu_key1Armed (a : Apu) (s : State) : (setApu a s).key1Armed = s.key1Armed := rfl
@[simp] theorem setApu_serial (a : Apu) (s : State) : (setApu a s).serial = s.serial := rfl
@[simp] theorem setApu_joypad (a : Apu) (s : State) : (setApu a s).joypad = s.joypad := rfl
@[simp] theorem setApu_bus (a : Apu) (s : State) : (setApu a s).bus = s.bus := rfl
@[simp] theorem setApu_vram (a : Apu) (s : State) : (setApu a s).vram = s.vram := rfl
@[simp] theorem setApu_wram (a : Apu) (s : State) : (setApu a s).wram = s.wram := rfl
@[simp] theorem setApu_oam (a : Apu) (s : State) : (setApu a s).oam = s.oam := rfl
@[simp] theorem setApu_hram (a : Apu) (s : State) : (setApu a s).hram = s.hram := rfl
@[simp] theorem setApu_ppu (a : Apu) (s : State) : (setApu a s).ppu = s.ppu := rfl
@[simp] theorem setApu_cart (a : Apu) (s : State) : (setApu a s).cart = s.cart := rfl
@[simp] theorem setApu_mbc (a : Apu) (s : State) : (setApu a s).mbc = s.mbc := rfl
@[simp] theorem setApu_cram (a : Apu) (s : State) : (setApu a s).cram = s.cram := rfl
@[simp] theorem setApu_rtc (a : Apu) (s : State) : (setApu a s).rtc = s.rtc := rfl
@[simp] theorem setApu_params (a : Apu) (s : State) : (setApu a s).params = s.params := rfl
@[simp] theorem setApu_apu (a : Apu) (s : State) : (setApu a s).apu = a := rfl
@[simp] theorem request_cpu (n : Source) (s : State) : (request n s).cpu = s.cpu := rfl
@[simp] theorem request_fault (n : Source) (s : State) : (request n s).fault = s.fault := rfl
@[simp] theorem request_clock (n : Source) (s : State) : (request n s).clock = s.clock := rfl
@[simp] theorem request_ieReg (n : Source) (s : State) : (request n s).ieReg = s.ieReg := rfl
@[simp] theorem request_timer (n : Source) (s : State) : (request n s).timer = s.timer := rfl
@[simp] theorem request_key1Armed (n : Source) (s : State) : (request n s).key1Armed = s.key1Armed := rfl
@[simp] theorem request_serial (n : Source) (s : State) : (request n s).serial = s.serial := rfl
@[simp] theorem request_joypad (n : Source) (s : State) : (request n s).joypad = s.joypad := rfl
@[simp] theorem request_bus (n : Source) (s : State) : (request n s).bus = s.bus := rfl
@[simp] theorem request_vram (n : Source) (s : State) : (request n s).vram = s.vram := rfl
@[simp] theorem request_wram (n : Source) (s : State) : (request n s).wram = s.wram := rfl
@[simp] theorem request_oam (n : Source) (s : State) : (request n s).oam = s.oam := rfl
@[simp] theorem request_hram (n : Source) (s : State) : (request n s).hram = s.hram := rfl
@[simp] theorem request_ppu (n : Source) (s : State) : (request n s).ppu = s.ppu := rfl
@[simp] theorem request_apu (n : Source) (s : State) : (request n s).apu = s.apu := rfl
@[simp] theorem request_cart (n : Source) (s : State) : (request n s).cart = s.cart := rfl
@[simp] theorem request_mbc (n : Source) (s : State) : (request n s).mbc = s.mbc := rfl
@[simp] theorem request_cram (n : Source) (s : State) : (request n s).cram = s.cram := rfl
@[simp] theorem request_rtc (n : Source) (s : State) : (request n s).rtc = s.rtc := rfl
@[simp] theorem request_params (n : Source) (s : State) : (request n s).params = s.params := rfl
@[simp] theorem request_ifReg (n : Source) (s : State) : (request n s).ifReg = s.ifReg ||| n.mask := rfl
@[simp] theorem requestIf_cpu (c : Bool) (n : Source) (s : State) : (requestIf c n s).cpu = s.cpu := by cases c <;> rfl
@[simp] theorem requestIf_fault (c : Bool) (n : Source) (s : State) : (requestIf c n s).fault = s.fault := by cases c <;> rfl
@[simp] theorem requestIf_clock (c : Bool) (n : Source) (s : State) : (requestIf c n s).clock = s.clock := by cases c <;> rfl
@[simp] theorem requestIf_ieReg (c : Bool) (n : Source) (s : State) : (requestIf c n s).ieReg = s.ieReg := by cases c <;> rfl
@[simp] theorem requestIf_timer (c : Bool) (n : Source) (s : State) : (requestIf c n s).timer = s.timer := by cases c <;> rfl
@[simp] theorem requestIf_key1Armed (c : Bool) (n : Source) (s : State) : (requestIf c n s).key1Armed = s.key1Armed := by cases c <;> rfl
@[simp] theorem requestIf_serial (c : Bool) (n : Source) (s : State) : (requestIf c n s).serial = s.serial := by cases c <;> rfl
@[simp] theorem requestIf_joypad (c : Bool) (n : Source) (s : State) : (requestIf c n s).joypad = s.joypad := by cases c <;> rfl
@[simp] theorem requestIf_bus (c : Bool) (n : Source) (s : State) : (requestIf c n s).bus = s.bus := by cases c <;> rfl
@[simp] theorem requestIf_vram (c : Bool) (n : Source) (s : State) : (requestIf c n s).vram = s.vram := by cases c <;> rfl
@[simp] theorem requestIf_wram (c : Bool) (n : Source) (s : State) : (requestIf c n s).wram = s.wram := by cases c <;> rfl
@[simp] theorem requestIf_oam (c : Bool) (n : Source) (s : State) : (requestIf c n s).oam = s.oam := by cases c <;> rfl
@[simp] theorem requestIf_hram (c : Bool) (n : Source) (s : State) : (requestIf c n s).hram = s.hram := by cases c <;> rfl
@[simp] theorem requestIf_ppu (c : Bool) (n : Source) (s : State) : (requestIf c n s).ppu = s.ppu := by cases c <;> rfl
@[simp] theorem requestIf_apu (c : Bool) (n : Source) (s : State) : (requestIf c n s).apu = s.apu := by cases c <;> rfl
@[simp] theorem requestIf_cart (c : Bool) (n : Source) (s : State) : (requestIf c n s).cart = s.cart := by cases c <;> rfl
@[simp] theorem requestIf_mbc (c : Bool) (n : Source) (s : State) : (requestIf c n s).mbc = s.mbc := by cases c <;> rfl
@[simp] theorem requestIf_cram (c : Bool) (n : Source) (s : State) : (requestIf c n s).cram = s.cram := by cases c <;> rfl
@[simp] theorem requestIf_rtc (c : Bool) (n : Source) (s : State) : (requestIf c n s).rtc = s.rtc := by cases c <;> rfl
@[simp] theorem requestIf_params (c : Bool) (n : Source) (s : State) : (requestIf c n s).params = s.params := by cases c <;> rfl
@[simp] theorem requestIf_ifReg (c : Bool) (n : Source) (s : State) :
    (requestIf c n s).ifReg = if c then s.ifReg ||| n.mask else s.ifReg := by cases c <;> rfl
@[simp] theorem setJoypad_cpu (j : Joypad) (s : State) : (setJoypad j s).cpu = s.cpu := requestIf_cpu _ _ _
@[simp] theorem setJoypad_fault (j : Joypad) (s : State) : (setJoypad j s).fault = s.fault := requestIf_fault _ _ _
@[simp] theorem setJoypad_clock (j : Joypad) (s : State) : (setJoypad j s).clock = s.clock := requestIf_clock _ _ _
@[simp] theorem setJoypad_ieReg (j : Joypad) (s : State) : (setJoypad j s).ieReg = s.ieReg := requestIf_ieReg _ _ _
@[simp] theorem setJoypad_timer (j : Joypad) (s : State) : (setJoypad j s).timer = s.timer := requestIf_timer _ _ _
@[simp] theorem setJoypad_key1Armed (j : Joypad) (s : State) : (setJoypad j s).key1Armed = s.key1Armed := requestIf_key1Armed _ _ _
@[simp] theorem setJoypad_serial (j : Joypad) (s : State) : (setJoypad j s).serial = s.serial := requestIf_serial _ _ _
@[simp] theorem setJoypad_bus (j : Joypad) (s : State) : (setJoypad j s).bus = s.bus := requestIf_bus _ _ _
@[simp] theorem setJoypad_vram (j : Joypad) (s : State) : (setJoypad j s).vram = s.vram := requestIf_vram _ _ _
@[simp] theorem setJoypad_wram (j : Joypad) (s : State) : (setJoypad j s).wram = s.wram := requestIf_wram _ _ _
@[simp] theorem setJoypad_oam (j : Joypad) (s : State) : (setJoypad j s).oam = s.oam := requestIf_oam _ _ _
@[simp] theorem setJoypad_hram (j : Joypad) (s : State) : (setJoypad j s).hram = s.hram := requestIf_hram _ _ _
@[simp] theorem setJoypad_ppu (j : Joypad) (s : State) : (setJoypad j s).ppu = s.ppu := requestIf_ppu _ _ _
@[simp] theorem setJoypad_apu (j : Joypad) (s : State) : (setJoypad j s).apu = s.apu := requestIf_apu _ _ _
@[simp] theorem setJoypad_cart (j : Joypad) (s : State) : (setJoypad j s).cart = s.cart := requestIf_cart _ _ _
@[simp] theorem setJoypad_mbc (j : Joypad) (s : State) : (setJoypad j s).mbc = s.mbc := requestIf_mbc _ _ _
@[simp] theorem setJoypad_cram (j : Joypad) (s : State) : (setJoypad j s).cram = s.cram := requestIf_cram _ _ _
@[simp] theorem setJoypad_rtc (j : Joypad) (s : State) : (setJoypad j s).rtc = s.rtc := requestIf_rtc _ _ _
@[simp] theorem setJoypad_params (j : Joypad) (s : State) : (setJoypad j s).params = s.params := requestIf_params _ _ _
@[simp] theorem setJoypad_joypad (j : Joypad) (s : State) : (setJoypad j s).joypad = j := requestIf_joypad _ _ _
@[simp] theorem setLive_cpu (r : RtcRegs) (s : State) : (setLive r s).cpu = s.cpu := rfl
@[simp] theorem setLive_fault (r : RtcRegs) (s : State) : (setLive r s).fault = s.fault := rfl
@[simp] theorem setLive_clock (r : RtcRegs) (s : State) : (setLive r s).clock = s.clock := rfl
@[simp] theorem setLive_ifReg (r : RtcRegs) (s : State) : (setLive r s).ifReg = s.ifReg := rfl
@[simp] theorem setLive_ieReg (r : RtcRegs) (s : State) : (setLive r s).ieReg = s.ieReg := rfl
@[simp] theorem setLive_timer (r : RtcRegs) (s : State) : (setLive r s).timer = s.timer := rfl
@[simp] theorem setLive_key1Armed (r : RtcRegs) (s : State) : (setLive r s).key1Armed = s.key1Armed := rfl
@[simp] theorem setLive_serial (r : RtcRegs) (s : State) : (setLive r s).serial = s.serial := rfl
@[simp] theorem setLive_joypad (r : RtcRegs) (s : State) : (setLive r s).joypad = s.joypad := rfl
@[simp] theorem setLive_bus (r : RtcRegs) (s : State) : (setLive r s).bus = s.bus := rfl
@[simp] theorem setLive_vram (r : RtcRegs) (s : State) : (setLive r s).vram = s.vram := rfl
@[simp] theorem setLive_wram (r : RtcRegs) (s : State) : (setLive r s).wram = s.wram := rfl
@[simp] theorem setLive_oam (r : RtcRegs) (s : State) : (setLive r s).oam = s.oam := rfl
@[simp] theorem setLive_hram (r : RtcRegs) (s : State) : (setLive r s).hram = s.hram := rfl
@[simp] theorem setLive_ppu (r : RtcRegs) (s : State) : (setLive r s).ppu = s.ppu := rfl
@[simp] theorem setLive_apu (r : RtcRegs) (s : State) : (setLive r s).apu = s.apu := rfl
@[simp] theorem setLive_cart (r : RtcRegs) (s : State) : (setLive r s).cart = s.cart := rfl
@[simp] theorem setLive_mbc (r : RtcRegs) (s : State) : (setLive r s).mbc = s.mbc := rfl
@[simp] theorem setLive_cram (r : RtcRegs) (s : State) : (setLive r s).cram = s.cram := rfl
@[simp] theorem setLive_params (r : RtcRegs) (s : State) : (setLive r s).params = s.params := rfl
@[simp] theorem updateIme_fault (s : State) : (updateIme s).fault = s.fault := rfl
@[simp] theorem updateIme_clock (s : State) : (updateIme s).clock = s.clock := rfl
@[simp] theorem updateIme_ifReg (s : State) : (updateIme s).ifReg = s.ifReg := rfl
@[simp] theorem updateIme_ieReg (s : State) : (updateIme s).ieReg = s.ieReg := rfl
@[simp] theorem updateIme_timer (s : State) : (updateIme s).timer = s.timer := rfl
@[simp] theorem updateIme_key1Armed (s : State) : (updateIme s).key1Armed = s.key1Armed := rfl
@[simp] theorem updateIme_serial (s : State) : (updateIme s).serial = s.serial := rfl
@[simp] theorem updateIme_joypad (s : State) : (updateIme s).joypad = s.joypad := rfl
@[simp] theorem updateIme_bus (s : State) : (updateIme s).bus = s.bus := rfl
@[simp] theorem updateIme_vram (s : State) : (updateIme s).vram = s.vram := rfl
@[simp] theorem updateIme_wram (s : State) : (updateIme s).wram = s.wram := rfl
@[simp] theorem updateIme_oam (s : State) : (updateIme s).oam = s.oam := rfl
@[simp] theorem updateIme_hram (s : State) : (updateIme s).hram = s.hram := rfl
@[simp] theorem updateIme_ppu (s : State) : (updateIme s).ppu = s.ppu := rfl
@[simp] theorem updateIme_apu (s : State) : (updateIme s).apu = s.apu := rfl
@[simp] theorem updateIme_cart (s : State) : (updateIme s).cart = s.cart := rfl
@[simp] theorem updateIme_mbc (s : State) : (updateIme s).mbc = s.mbc := rfl
@[simp] theorem updateIme_cram (s : State) : (updateIme s).cram = s.cram := rfl
@[simp] theorem updateIme_rtc (s : State) : (updateIme s).rtc = s.rtc := rfl
@[simp] theorem updateIme_params (s : State) : (updateIme s).params = s.params := rfl
@[simp] theorem updateIme_cpu_a (s : State) : (updateIme s).cpu.a = s.cpu.a := rfl
@[simp] theorem updateIme_cpu_b (s : State) : (updateIme s).cpu.b = s.cpu.b := rfl
@[simp] theorem updateIme_cpu_c (s : State) : (updateIme s).cpu.c = s.cpu.c := rfl
@[simp] theorem updateIme_cpu_d (s : State) : (updateIme s).cpu.d = s.cpu.d := rfl
@[simp] theorem updateIme_cpu_e (s : State) : (updateIme s).cpu.e = s.cpu.e := rfl
@[simp] theorem updateIme_cpu_h (s : State) : (updateIme s).cpu.h = s.cpu.h := rfl
@[simp] theorem updateIme_cpu_l (s : State) : (updateIme s).cpu.l = s.cpu.l := rfl
@[simp] theorem updateIme_cpu_zf (s : State) : (updateIme s).cpu.zf = s.cpu.zf := rfl
@[simp] theorem updateIme_cpu_nf (s : State) : (updateIme s).cpu.nf = s.cpu.nf := rfl
@[simp] theorem updateIme_cpu_hf (s : State) : (updateIme s).cpu.hf = s.cpu.hf := rfl
@[simp] theorem updateIme_cpu_cf (s : State) : (updateIme s).cpu.cf = s.cpu.cf := rfl
@[simp] theorem updateIme_cpu_sp (s : State) : (updateIme s).cpu.sp = s.cpu.sp := rfl
@[simp] theorem updateIme_cpu_pc (s : State) : (updateIme s).cpu.pc = s.cpu.pc := rfl
@[simp] theorem updateIme_cpu_runState (s : State) : (updateIme s).cpu.runState = s.cpu.runState := rfl
@[simp] theorem updateIme_cpu_haltRepeat (s : State) : (updateIme s).cpu.haltRepeat = s.cpu.haltRepeat := rfl
@[simp] theorem updateIme_cpu_speedShift (s : State) : (updateIme s).cpu.speedShift = s.cpu.speedShift := rfl
@[simp] theorem wake_fault (s : State) : (wake s).fault = s.fault := rfl
@[simp] theorem wake_clock (s : State) : (wake s).clock = s.clock := rfl
@[simp] theorem wake_ifReg (s : State) : (wake s).ifReg = s.ifReg := rfl
@[simp] theorem wake_ieReg (s : State) : (wake s).ieReg = s.ieReg := rfl
@[simp] theorem wake_timer (s : State) : (wake s).timer = s.timer := rfl
@[simp] theorem wake_key1Armed (s : State) : (wake s).key1Armed = s.key1Armed := rfl
@[simp] theorem wake_serial (s : State) : (wake s).serial = s.serial := rfl
@[simp] theorem wake_joypad (s : State) : (wake s).joypad = s.joypad := rfl
@[simp] theorem wake_bus (s : State) : (wake s).bus = s.bus := rfl
@[simp] theorem wake_vram (s : State) : (wake s).vram = s.vram := rfl
@[simp] theorem wake_wram (s : State) : (wake s).wram = s.wram := rfl
@[simp] theorem wake_oam (s : State) : (wake s).oam = s.oam := rfl
@[simp] theorem wake_hram (s : State) : (wake s).hram = s.hram := rfl
@[simp] theorem wake_ppu (s : State) : (wake s).ppu = s.ppu := rfl
@[simp] theorem wake_apu (s : State) : (wake s).apu = s.apu := rfl
@[simp] theorem wake_cart (s : State) : (wake s).cart = s.cart := rfl
@[simp] theorem wake_mbc (s : State) : (wake s).mbc = s.mbc := rfl
@[simp] theorem wake_cram (s : State) : (wake s).cram = s.cram := rfl
@[simp] theorem wake_rtc (s : State) : (wake s).rtc = s.rtc := rfl
@[simp] theorem wake_params (s : State) : (wake s).params = s.params := rfl
@[simp] theorem wake_cpu_a (s : State) : (wake s).cpu.a = s.cpu.a := rfl
@[simp] theorem wake_cpu_b (s : State) : (wake s).cpu.b = s.cpu.b := rfl
@[simp] theorem wake_cpu_c (s : State) : (wake s).cpu.c = s.cpu.c := rfl
@[simp] theorem wake_cpu_d (s : State) : (wake s).cpu.d = s.cpu.d := rfl
@[simp] theorem wake_cpu_e (s : State) : (wake s).cpu.e = s.cpu.e := rfl
@[simp] theorem wake_cpu_h (s : State) : (wake s).cpu.h = s.cpu.h := rfl
@[simp] theorem wake_cpu_l (s : State) : (wake s).cpu.l = s.cpu.l := rfl
@[simp] theorem wake_cpu_zf (s : State) : (wake s).cpu.zf = s.cpu.zf := rfl
@[simp] theorem wake_cpu_nf (s : State) : (wake s).cpu.nf = s.cpu.nf := rfl
@[simp] theorem wake_cpu_hf (s : State) : (wake s).cpu.hf = s.cpu.hf := rfl
@[simp] theorem wake_cpu_cf (s : State) : (wake s).cpu.cf = s.cpu.cf := rfl
@[simp] theorem wake_cpu_sp (s : State) : (wake s).cpu.sp = s.cpu.sp := rfl
@[simp] theorem wake_cpu_pc (s : State) : (wake s).cpu.pc = s.cpu.pc := rfl
@[simp] theorem wake_cpu_ime (s : State) : (wake s).cpu.ime = s.cpu.ime := rfl
@[simp] theorem wake_cpu_imePending (s : State) : (wake s).cpu.imePending = s.cpu.imePending := rfl
@[simp] theorem wake_cpu_haltRepeat (s : State) : (wake s).cpu.haltRepeat = s.cpu.haltRepeat := rfl
@[simp] theorem wake_cpu_speedShift (s : State) : (wake s).cpu.speedShift = s.cpu.speedShift := rfl
@[simp] theorem divAdvance_cpu (n : Nat) (s : State) : (divAdvance n s).cpu = s.cpu := rfl
@[simp] theorem divAdvance_fault (n : Nat) (s : State) : (divAdvance n s).fault = s.fault := rfl
@[simp] theorem divAdvance_clock (n : Nat) (s : State) : (divAdvance n s).clock = s.clock := rfl
@[simp] theorem divAdvance_ifReg (n : Nat) (s : State) : (divAdvance n s).ifReg = s.ifReg := rfl
@[simp] theorem divAdvance_ieReg (n : Nat) (s : State) : (divAdvance n s).ieReg = s.ieReg := rfl
@[simp] theorem divAdvance_key1Armed (n : Nat) (s : State) : (divAdvance n s).key1Armed = s.key1Armed := rfl
@[simp] theorem divAdvance_serial (n : Nat) (s : State) : (divAdvance n s).serial = s.serial := rfl
@[simp] theorem divAdvance_joypad (n : Nat) (s : State) : (divAdvance n s).joypad = s.joypad := rfl
@[simp] theorem divAdvance_bus (n : Nat) (s : State) : (divAdvance n s).bus = s.bus := rfl
@[simp] theorem divAdvance_vram (n : Nat) (s : State) : (divAdvance n s).vram = s.vram := rfl
@[simp] theorem divAdvance_wram (n : Nat) (s : State) : (divAdvance n s).wram = s.wram := rfl
@[simp] theorem divAdvance_oam (n : Nat) (s : State) : (divAdvance n s).oam = s.oam := rfl
@[simp] theorem divAdvance_hram (n : Nat) (s : State) : (divAdvance n s).hram = s.hram := rfl
@[simp] theorem divAdvance_ppu (n : Nat) (s : State) : (divAdvance n s).ppu = s.ppu := rfl
@[simp] theorem divAdvance_apu (n : Nat) (s : State) : (divAdvance n s).apu = s.apu := rfl
@[simp] theorem divAdvance_cart (n : Nat) (s : State) : (divAdvance n s).cart = s.cart := rfl
@[simp] theorem divAdvance_mbc (n : Nat) (s : State) : (divAdvance n s).mbc = s.mbc := rfl
@[simp] theorem divAdvance_cram (n : Nat) (s : State) : (divAdvance n s).cram = s.cram := rfl
@[simp] theorem divAdvance_rtc (n : Nat) (s : State) : (divAdvance n s).rtc = s.rtc := rfl
@[simp] theorem divAdvance_params (n : Nat) (s : State) : (divAdvance n s).params = s.params := rfl
@[simp] theorem enableLater_fault (s : State) : (enableLater s).fault = s.fault := by unfold enableLater; split <;> rfl
@[simp] theorem enableLater_clock (s : State) : (enableLater s).clock = s.clock := by unfold enableLater; split <;> rfl
@[simp] theorem enableLater_ifReg (s : State) : (enableLater s).ifReg = s.ifReg := by unfold enableLater; split <;> rfl
@[simp] theorem enableLater_ieReg (s : State) : (enableLater s).ieReg = s.ieReg := by unfold enableLater; split <;> rfl
@[simp] theorem enableLater_timer (s : State) : (enableLater s).timer = s.timer := by unfold enableLater; split <;> rfl
@[simp] theorem enableLater_key1Armed (s : State) : (enableLater s).key1Armed = s.key1Armed := by unfold enableLater; split <;> rfl
@[simp] theorem enableLater_serial (s : State) : (enableLater s).serial = s.serial := by unfold enableLater; split <;> rfl
@[simp] theorem enableLater_joypad (s : State) : (enableLater s).joypad = s.joypad := by unfold enableLater; split <;> rfl
@[simp] theorem enableLater_bus (s : State) : (enableLater s).bus = s.bus := by unfold enableLater; split <;> rfl
@[simp] theorem enableLater_vram (s : State) : (enableLater s).vram = s.vram := by unfold enableLater; split <;> rfl
@[simp] theorem enableLater_wram (s : State) : (enableLater s).wram = s.wram := by unfold enableLater; split <;> rfl
@[simp] theorem enableLater_oam (s : State) : (enableLater s).oam = s.oam := by unfold enableLater; split <;> rfl
@[simp] theorem enableLater_hram (s : State) : (enableLater s).hram = s.hram := by unfold enableLater; split <;> rfl
@[simp] theorem enableLater_ppu (s : State) : (enableLater s).ppu = s.ppu := by unfold enableLater; split <;> rfl
@[simp] theorem enableLater_apu (s : State) : (enableLater s).apu = s.apu := by unfold enableLater; split <;> rfl
@[simp] theorem enableLater_cart (s : State) : (enableLater s).cart = s.cart := by unfold enableLater; split <;> rfl
@[simp] theorem enableLater_mbc (s : State) : (enableLater s).mbc = s.mbc := by unfold enableLater; split <;> rfl
@[simp] theorem enableLater_cram (s : State) : (enableLater s).cram = s.cram := by unfold enableLater; split <;> rfl
@[simp] theorem enableLater_rtc (s : State) : (enableLater s).rtc = s.rtc := by unfold enableLater; split <;> rfl
@[simp] theorem enableLater_params (s : State) : (enableLater s).params = s.params := by unfold enableLater; split <;> rfl
@[simp] theorem enableLater_cpu_a (s : State) : (enableLater s).cpu.a = s.cpu.a := by unfold enableLater; split <;> rfl
@[simp] theorem enableLater_cpu_b (s : State) : (enableLater s).cpu.b = s.cpu.b := by unfold enableLater; split <;> rfl
@[simp] theorem enableLater_cpu_c (s : State) : (enableLater s).cpu.c = s.cpu.c := by unfold enableLater; split <;> rfl
@[simp] theorem enableLater_cpu_d (s : State) : (enableLater s).cpu.d = s.cpu.d := by unfold enableLater; split <;> rfl
@[simp] theorem enableLater_cpu_e (s : State) : (enableLater s).cpu.e = s.cpu.e := by unfold enableLater; split <;> rfl
@[simp] theorem enableLater_cpu_h (s : State) : (enableLater s).cpu.h = s.cpu.h := by unfold enableLater; split <;> rfl
@[simp] theorem enableLater_cpu_l (s : State) : (enableLater s).cpu.l = s.cpu.l := by unfold enableLater; split <;> rfl
@[simp] theorem enableLater_cpu_zf (s : State) : (enableLater s).cpu.zf = s.cpu.zf := by unfold enableLater; split <;> rfl
@[simp] theorem enableLater_cpu_nf (s : State) : (enableLater s).cpu.nf = s.cpu.nf := by unfold enableLater; split <;> rfl
@[simp] theorem enableLater_cpu_hf (s : State) : (enableLater s).cpu.hf = s.cpu.hf := by unfold enableLater; split <;> rfl
@[simp] theorem enableLater_cpu_cf (s : State) : (enableLater s).cpu.cf = s.cpu.cf := by unfold enableLater; split <;> rfl
@[simp] theorem enableLater_cpu_sp (s : State) : (enableLater s).cpu.sp = s.cpu.sp := by unfold enableLater; split <;> rfl
@[simp] theorem enableLater_cpu_pc (s : State) : (enableLater s).cpu.pc = s.cpu.pc := by unfold enableLater; split <;> rfl
@[simp] theorem enableLater_cpu_ime (s : State) : (enableLater s).cpu.ime = s.cpu.ime := by unfold enableLater; split <;> rfl
@[simp] theorem enableLater_cpu_runState (s : State) : (enableLater s).cpu.runState = s.cpu.runState := by unfold enableLater; split <;> rfl
@[simp] theorem enableLater_cpu_haltRepeat (s : State) : (enableLater s).cpu.haltRepeat = s.cpu.haltRepeat := by unfold enableLater; split <;> rfl
@[simp] theorem enableLater_cpu_speedShift (s : State) : (enableLater s).cpu.speedShift = s.cpu.speedShift := by unfold enableLater; split <;> rfl

/-- Reading back a written 8-bit register. -/
@[simp] theorem getReg_setReg_same (r : Reg8) (v : Byte) (s : State) : getReg r (setReg r v s) = v := by cases r <;> rfl

/-- A write of one register leaves the others. -/
theorem getReg_setReg_other {r q : Reg8} (h : q ≠ r) (v : Byte) (s : State) : getReg q (setReg r v s) = getReg q s := by
  cases r <;> cases q <;> first | rfl | exact absurd rfl h

@[simp] theorem getReg_setFlags (r : Reg8) (f : Flags) (s : State) : getReg r (setFlags f s) = getReg r s := by
  cases r <;> rfl
@[simp] theorem getReg_setPc (r : Reg8) (v : Word) (s : State) : getReg r (setPc v s) = getReg r s := by cases r <;> rfl
@[simp] theorem getReg_setSp (r : Reg8) (v : Word) (s : State) : getReg r (setSp v s) = getReg r s := by cases r <;> rfl
@[simp] theorem flags_setFlags (f : Flags) (s : State) : (setFlags f s).cpu.flags = f := rfl
@[simp] theorem flags_setReg (r : Reg8) (v : Byte) (s : State) : (setReg r v s).cpu.flags = s.cpu.flags := by
  cases r <;> rfl
@[simp] theorem flags_setPc (v : Word) (s : State) : (setPc v s).cpu.flags = s.cpu.flags := rfl
@[simp] theorem flags_setSp (v : Word) (s : State) : (setSp v s).cpu.flags = s.cpu.flags := rfl

/-- The two halves of a word make it. -/
@[simp] theorem word_hi_lo (v : Word) : word (hiByte v) (loByte v) = v := by
  apply BitVec.eq_of_toNat_eq
  have h := v.isLt
  simp only [word, hiByte, loByte, BitVec.toNat_append, BitVec.extractLsb'_toNat, Nat.shiftRight_zero]
  rw [← Nat.shiftLeft_add_eq_or_of_lt (by omega), Nat.shiftLeft_eq, Nat.shiftRight_eq_div_pow]
  omega

/-- The value of a word by its bytes: little-endian (R11, R73). -/
theorem word_toNat (hi lo : Byte) : (word hi lo).toNat = 256 * hi.toNat + lo.toNat := by
  have h := lo.isLt
  simp only [word, BitVec.toNat_append]
  rw [← Nat.shiftLeft_add_eq_or_of_lt h, Nat.shiftLeft_eq, Nat.mul_comm]

/-- The value of the high byte of a word. -/
theorem hiByte_toNat (v : Word) : (hiByte v).toNat = v.toNat / 256 := by
  have h := v.isLt
  simp only [hiByte, BitVec.extractLsb'_toNat, Nat.shiftRight_eq_div_pow]
  omega

/-- The value of the low byte of a word. -/
theorem loByte_toNat (v : Word) : (loByte v).toNat = v.toNat % 256 := by
  simp only [loByte, BitVec.extractLsb'_toNat, Nat.shiftRight_zero]

@[simp] theorem hiByte_word (hi lo : Byte) : hiByte (word hi lo) = hi := by
  apply BitVec.eq_of_toNat_eq
  have h1 := lo.isLt
  rw [hiByte_toNat, word_toNat]
  omega

@[simp] theorem loByte_word (hi lo : Byte) : loByte (word hi lo) = lo := by
  apply BitVec.eq_of_toNat_eq
  have h1 := lo.isLt
  rw [loByte_toNat, word_toNat]
  omega

@[simp] theorem hl_setHl (v : Word) (s : State) : hl (setHl v s) = v := word_hi_lo v
@[simp] theorem bc_setBc (v : Word) (s : State) : bc (setBc v s) = v := word_hi_lo v
@[simp] theorem de_setDe (v : Word) (s : State) : de (setDe v s) = v := word_hi_lo v

/-- Reading back a written pair or `SP`. -/
@[simp] theorem getPair_setPair_same (r : Reg16) (v : Word) (s : State) : getPair r (setPair r v s) = v := by
  cases r <;> first | exact word_hi_lo v | rfl

/-- Reading back a written stack pair. -/
@[simp] theorem getStackPair_setStackPair_same (r : StackPair) (v : Word) (s : State) :
    getStackPair r (setStackPair r v s) = v := by
  cases r <;> exact word_hi_lo v

end Sys2Proof.Machine
end

