-- ==== Sys2Proof/Laws/Exec.lean ====
section
/-! SUPPORT. `exec` by instruction form: which shared operation each form runs, and the induction over everything
an instruction can do (processor changes and bus writes). -/

namespace Sys2Proof.Machine

/-- The operation an instruction form runs. -/
def runForm (f : Form) (s : State) : Except Fault State :=
  match f with
  | .ldReg dst r => ldReg dst r s
  | .ldImm dst imm => ldImm dst imm s
  | .ldFromHl dst => loadFrom dst (hl s) s
  | .ldToHl r => writeByte s (hl s) (getReg r s)
  | .ldToHlImm imm => writeByte s (hl s) imm
  | .ldAFromBc => loadFrom .a (bc s) s
  | .ldAFromDe => loadFrom .a (de s) s
  | .ldToBcA => writeByte s (bc s) s.cpu.a
  | .ldToDeA => writeByte s (de s) s.cpu.a
  | .ldAFromAbs addr => loadFrom .a addr s
  | .ldToAbsA addr => writeByte s addr s.cpu.a
  | .ldhAFromImm lo => loadFrom .a (highPage lo) s
  | .ldhToImmA lo => writeByte s (highPage lo) s.cpu.a
  | .ldhAFromC => loadFrom .a (highPage s.cpu.c) s
  | .ldhToCA => writeByte s (highPage s.cpu.c) s.cpu.a
  | .ldToHlIncA => storeHlStep 1 s
  | .ldAFromHlInc => loadHlStep 1 s
  | .ldToHlDecA => storeHlStep (-1) s
  | .ldAFromHlDec => loadHlStep (-1) s
  | .ldPair dst imm => ldPair dst imm s
  | .ldToAbsSp addr => storeSp addr s
  | .ldSpHl => .ok (setSp (hl s) s)
  | .ldHlSp off => ldHlSp off s
  | .push r => push16 (getStackPair r s) s
  | .pushAf => push16 (af s) s
  | .pop r => popPair r s
  | .popAf => popAf s
  | .alu op r => aluReg op r s
  | .aluAtHl op => aluAtHl op s
  | .aluImm op imm => aluImm op imm s
  | .incReg r => incReg r s
  | .incAtHl => modifyAtHl (fun v => inc8 v s.cpu.cf) s
  | .decReg r => decReg r s
  | .decAtHl => modifyAtHl (fun v => dec8 v s.cpu.cf) s
  | .daa => daa s
  | .cpl => cpl s
  | .scf => scf s
  | .ccf => ccf s
  | .addHl r => addHl r s
  | .incPair r => incPair r s
  | .decPair r => decPair r s
  | .addSp off => addSp off s
  | .rlca => rotateAcc .rlc s
  | .rrca => rotateAcc .rrc s
  | .rla => rotateAcc .rl s
  | .rra => rotateAcc .rr s
  | .rot op r => rotateReg op r s
  | .rotAtHl op => rotateAtHl op s
  | .bit n r => bitReg n r s
  | .bitAtHl n => bitAtHl n s
  | .res n r => resReg n r s
  | .resAtHl n => rewriteAtHl (fun v => clearBit v n) s
  | .set n r => setBitReg n r s
  | .setAtHl n => rewriteAtHl (fun v => setBit v n) s
  | .jp addr => jump addr s
  | .jpIf cc addr => onCondition cc (jump addr) s
  | .jpHl => jump (hl s) s
  | .jr off => jump (relativeTarget off s) s
  | .jrIf cc off => onCondition cc (jump (relativeTarget off s)) s
  | .call addr => call addr s
  | .callIf cc addr => onCondition cc (call addr) s
  | .ret => ret s
  | .retIf cc => onCondition cc ret s
  | .reti => returnFromInterrupt s
  | .rst t => call (restartAddress t) s
  | .nop => nop s
  | .halt => halt s
  | .stop second => stop second s
  | .di => di s
  | .ei => ei s
  | .prefixCb op2 => runSecond op2 s
  | .illegal b => illegal b s

/-- Every instruction runs the operation of its form. -/
theorem exec_eq_run (i : Instr) (s : State) : exec i s = Result.ofExcept (runForm i.form s) := by cases i <;> rfl

/-- The row of a form is of that form. -/
theorem form_toInstr (f : Form) : f.toInstr.form = f := by
  cases f with
  | ldReg dst r => cases dst <;> cases r <;> rfl
  | ldImm dst _ => cases dst <;> rfl
  | ldFromHl dst => cases dst <;> rfl
  | ldToHl r => cases r <;> rfl
  | ldPair dst _ => cases dst <;> rfl
  | push r => cases r <;> rfl
  | pop r => cases r <;> rfl
  | alu op r => cases op <;> cases r <;> rfl
  | aluAtHl op => cases op <;> rfl
  | aluImm op _ => cases op <;> rfl
  | incReg r => cases r <;> rfl
  | decReg r => cases r <;> rfl
  | addHl r => cases r <;> rfl
  | incPair r => cases r <;> rfl
  | decPair r => cases r <;> rfl
  | rot op r => cases op <;> cases r <;> rfl
  | rotAtHl op => cases op <;> rfl
  | bit n r => cases n <;> cases r <;> rfl
  | bitAtHl n => cases n <;> rfl
  | res n r => cases n <;> cases r <;> rfl
  | resAtHl n => cases n <;> rfl
  | set n r => cases n <;> cases r <;> rfl
  | setAtHl n => cases n <;> rfl
  | jpIf cc _ => cases cc <;> rfl
  | jrIf cc _ => cases cc <;> rfl
  | callIf cc _ => cases cc <;> rfl
  | retIf cc => cases cc <;> rfl
  | rst t => cases t <;> rfl
  | illegal b => cases b <;> rfl
  | _ => rfl

/-- A form's row runs the form's operation. -/
theorem exec_toInstr (f : Form) (s : State) : exec f.toInstr s = Result.ofExcept (runForm f s) := by
  rw [exec_eq_run, form_toInstr]

@[simp] theorem ofExcept_ok (s : State) : Result.ofExcept (.ok s) = .next s := rfl
@[simp] theorem ofExcept_error (f : Fault) : Result.ofExcept (.error f) = .fault f := rfl

/-- An answer that is a next state comes from an operation that succeeded. -/
theorem ofExcept_next {r : Except Fault State} {t : State} : Result.ofExcept r = .next t ↔ r = .ok t := by
  cases r <;> simp [Result.ofExcept]

/-- The bind of two operations succeeds exactly when both do. -/
theorem bind_eq_ok {α β : Type} {x : Except Fault α} {f : α → Except Fault β} {b : β} :
    (x >>= f) = .ok b ↔ ∃ a, x = .ok a ∧ f a = .ok b := by
  cases x with
  | error e =>
    constructor
    · intro h; cases h
    · rintro ⟨a, h, -⟩; cases h
  | ok a =>
    constructor
    · exact fun h => ⟨a, rfl, h⟩
    · rintro ⟨a', h, h'⟩; cases h; exact h'

@[simp] theorem bind_ok {α β : Type} (a : α) (f : α → Except Fault β) : ((Except.ok a : Except Fault α) >>= f) = f a := rfl
@[simp] theorem bind_error {α β : Type} (e : Fault) (f : α → Except Fault β) :
    ((Except.error e : Except Fault α) >>= f) = .error e := rfl

/-- The form a second opcode byte selects runs what `runSecond` runs (R325). -/
theorem cbForm_run (op2 : Byte) (s : State) : runForm (Decode.cbForm op2) s = runSecond op2 s := by
  unfold Decode.cbForm runSecond
  split <;> simp_all [runForm]

end Sys2Proof.Machine
end

