-- ==== Sys2Proof/Laws/Devices.lean ====
section
/-! SUPPORT. What each device operation, bus write and `tick` leaves unchanged, field by field. -/

namespace Sys2Proof.Machine

@[simp] theorem renderUpTo_cpu (p : Nat) (s : State) : (renderUpTo p s).cpu = s.cpu := by
  unfold renderUpTo; split <;> simp
@[simp] theorem renderUpTo_fault (p : Nat) (s : State) : (renderUpTo p s).fault = s.fault := by
  unfold renderUpTo; split <;> simp
@[simp] theorem renderUpTo_clock (p : Nat) (s : State) : (renderUpTo p s).clock = s.clock := by
  unfold renderUpTo; split <;> simp
@[simp] theorem renderUpTo_ifReg (p : Nat) (s : State) : (renderUpTo p s).ifReg = s.ifReg := by
  unfold renderUpTo; split <;> simp
@[simp] theorem renderUpTo_ieReg (p : Nat) (s : State) : (renderUpTo p s).ieReg = s.ieReg := by
  unfold renderUpTo; split <;> simp
@[simp] theorem renderUpTo_timer (p : Nat) (s : State) : (renderUpTo p s).timer = s.timer := by
  unfold renderUpTo; split <;> simp
@[simp] theorem renderUpTo_key1Armed (p : Nat) (s : State) : (renderUpTo p s).key1Armed = s.key1Armed := by
  unfold renderUpTo; split <;> simp
@[simp] theorem renderUpTo_serial (p : Nat) (s : State) : (renderUpTo p s).serial = s.serial := by
  unfold renderUpTo; split <;> simp
@[simp] theorem renderUpTo_joypad (p : Nat) (s : State) : (renderUpTo p s).joypad = s.joypad := by
  unfold renderUpTo; split <;> simp
@[simp] theorem renderUpTo_bus (p : Nat) (s : State) : (renderUpTo p s).bus = s.bus := by
  unfold renderUpTo; split <;> simp
@[simp] theorem renderUpTo_vram (p : Nat) (s : State) : (renderUpTo p s).vram = s.vram := by
  unfold renderUpTo; split <;> simp
@[simp] theorem renderUpTo_wram (p : Nat) (s : State) : (renderUpTo p s).wram = s.wram := by
  unfold renderUpTo; split <;> simp
@[simp] theorem renderUpTo_oam (p : Nat) (s : State) : (renderUpTo p s).oam = s.oam := by
  unfold renderUpTo; split <;> simp
@[simp] theorem renderUpTo_hram (p : Nat) (s : State) : (renderUpTo p s).hram = s.hram := by
  unfold renderUpTo; split <;> simp
@[simp] theorem renderUpTo_apu (p : Nat) (s : State) : (renderUpTo p s).apu = s.apu := by
  unfold renderUpTo; split <;> simp
@[simp] theorem renderUpTo_cart (p : Nat) (s : State) : (renderUpTo p s).cart = s.cart := by
  unfold renderUpTo; split <;> simp
@[simp] theorem renderUpTo_mbc (p : Nat) (s : State) : (renderUpTo p s).mbc = s.mbc := by
  unfold renderUpTo; split <;> simp
@[simp] theorem renderUpTo_cram (p : Nat) (s : State) : (renderUpTo p s).cram = s.cram := by
  unfold renderUpTo; split <;> simp
@[simp] theorem renderUpTo_rtc (p : Nat) (s : State) : (renderUpTo p s).rtc = s.rtc := by
  unfold renderUpTo; split <;> simp
@[simp] theorem renderUpTo_params (p : Nat) (s : State) : (renderUpTo p s).params = s.params := by
  unfold renderUpTo; split <;> simp
@[simp] theorem renderSoFar_cpu (s : State) : (renderSoFar s).cpu = s.cpu := by
  simp [renderSoFar]
@[simp] theorem renderSoFar_fault (s : State) : (renderSoFar s).fault = s.fault := by
  simp [renderSoFar]
@[simp] theorem renderSoFar_clock (s : State) : (renderSoFar s).clock = s.clock := by
  simp [renderSoFar]
@[simp] theorem renderSoFar_ifReg (s : State) : (renderSoFar s).ifReg = s.ifReg := by
  simp [renderSoFar]
@[simp] theorem renderSoFar_ieReg (s : State) : (renderSoFar s).ieReg = s.ieReg := by
  simp [renderSoFar]
@[simp] theorem renderSoFar_timer (s : State) : (renderSoFar s).timer = s.timer := by
  simp [renderSoFar]
@[simp] theorem renderSoFar_key1Armed (s : State) : (renderSoFar s).key1Armed = s.key1Armed := by
  simp [renderSoFar]
@[simp] theorem renderSoFar_serial (s : State) : (renderSoFar s).serial = s.serial := by
  simp [renderSoFar]
@[simp] theorem renderSoFar_joypad (s : State) : (renderSoFar s).joypad = s.joypad := by
  simp [renderSoFar]
@[simp] theorem renderSoFar_bus (s : State) : (renderSoFar s).bus = s.bus := by
  simp [renderSoFar]
@[simp] theorem renderSoFar_vram (s : State) : (renderSoFar s).vram = s.vram := by
  simp [renderSoFar]
@[simp] theorem renderSoFar_wram (s : State) : (renderSoFar s).wram = s.wram := by
  simp [renderSoFar]
@[simp] theorem renderSoFar_oam (s : State) : (renderSoFar s).oam = s.oam := by
  simp [renderSoFar]
@[simp] theorem renderSoFar_hram (s : State) : (renderSoFar s).hram = s.hram := by
  simp [renderSoFar]
@[simp] theorem renderSoFar_apu (s : State) : (renderSoFar s).apu = s.apu := by
  simp [renderSoFar]
@[simp] theorem renderSoFar_cart (s : State) : (renderSoFar s).cart = s.cart := by
  simp [renderSoFar]
@[simp] theorem renderSoFar_mbc (s : State) : (renderSoFar s).mbc = s.mbc := by
  simp [renderSoFar]
@[simp] theorem renderSoFar_cram (s : State) : (renderSoFar s).cram = s.cram := by
  simp [renderSoFar]
@[simp] theorem renderSoFar_rtc (s : State) : (renderSoFar s).rtc = s.rtc := by
  simp [renderSoFar]
@[simp] theorem renderSoFar_params (s : State) : (renderSoFar s).params = s.params := by
  simp [renderSoFar]
@[simp] theorem compositeSprites_cpu (s : State) : (compositeSprites s).cpu = s.cpu := by
  unfold compositeSprites; split <;> simp
@[simp] theorem compositeSprites_fault (s : State) : (compositeSprites s).fault = s.fault := by
  unfold compositeSprites; split <;> simp
@[simp] theorem compositeSprites_clock (s : State) : (compositeSprites s).clock = s.clock := by
  unfold compositeSprites; split <;> simp
@[simp] theorem compositeSprites_ifReg (s : State) : (compositeSprites s).ifReg = s.ifReg := by
  unfold compositeSprites; split <;> simp
@[simp] theorem compositeSprites_ieReg (s : State) : (compositeSprites s).ieReg = s.ieReg := by
  unfold compositeSprites; split <;> simp
@[simp] theorem compositeSprites_timer (s : State) : (compositeSprites s).timer = s.timer := by
  unfold compositeSprites; split <;> simp
@[simp] theorem compositeSprites_key1Armed (s : State) : (compositeSprites s).key1Armed = s.key1Armed := by
  unfold compositeSprites; split <;> simp
@[simp] theorem compositeSprites_serial (s : State) : (compositeSprites s).serial = s.serial := by
  unfold compositeSprites; split <;> simp
@[simp] theorem compositeSprites_joypad (s : State) : (compositeSprites s).joypad = s.joypad := by
  unfold compositeSprites; split <;> simp
@[simp] theorem compositeSprites_bus (s : State) : (compositeSprites s).bus = s.bus := by
  unfold compositeSprites; split <;> simp
@[simp] theorem compositeSprites_vram (s : State) : (compositeSprites s).vram = s.vram := by
  unfold compositeSprites; split <;> simp
@[simp] theorem compositeSprites_wram (s : State) : (compositeSprites s).wram = s.wram := by
  unfold compositeSprites; split <;> simp
@[simp] theorem compositeSprites_oam (s : State) : (compositeSprites s).oam = s.oam := by
  unfold compositeSprites; split <;> simp
@[simp] theorem compositeSprites_hram (s : State) : (compositeSprites s).hram = s.hram := by
  unfold compositeSprites; split <;> simp
@[simp] theorem compositeSprites_apu (s : State) : (compositeSprites s).apu = s.apu := by
  unfold compositeSprites; split <;> simp
@[simp] theorem compositeSprites_cart (s : State) : (compositeSprites s).cart = s.cart := by
  unfold compositeSprites; split <;> simp
@[simp] theorem compositeSprites_mbc (s : State) : (compositeSprites s).mbc = s.mbc := by
  unfold compositeSprites; split <;> simp
@[simp] theorem compositeSprites_cram (s : State) : (compositeSprites s).cram = s.cram := by
  unfold compositeSprites; split <;> simp
@[simp] theorem compositeSprites_rtc (s : State) : (compositeSprites s).rtc = s.rtc := by
  unfold compositeSprites; split <;> simp
@[simp] theorem compositeSprites_params (s : State) : (compositeSprites s).params = s.params := by
  unfold compositeSprites; split <;> simp
@[simp] theorem copyLine_cpu (s : State) : (copyLine s).cpu = s.cpu := by
  simp [copyLine]
@[simp] theorem copyLine_fault (s : State) : (copyLine s).fault = s.fault := by
  simp [copyLine]
@[simp] theorem copyLine_clock (s : State) : (copyLine s).clock = s.clock := by
  simp [copyLine]
@[simp] theorem copyLine_ifReg (s : State) : (copyLine s).ifReg = s.ifReg := by
  simp [copyLine]
@[simp] theorem copyLine_ieReg (s : State) : (copyLine s).ieReg = s.ieReg := by
  simp [copyLine]
@[simp] theorem copyLine_timer (s : State) : (copyLine s).timer = s.timer := by
  simp [copyLine]
@[simp] theorem copyLine_key1Armed (s : State) : (copyLine s).key1Armed = s.key1Armed := by
  simp [copyLine]
@[simp] theorem copyLine_serial (s : State) : (copyLine s).serial = s.serial := by
  simp [copyLine]
@[simp] theorem copyLine_joypad (s : State) : (copyLine s).joypad = s.joypad := by
  simp [copyLine]
@[simp] theorem copyLine_bus (s : State) : (copyLine s).bus = s.bus := by
  simp [copyLine]
@[simp] theorem copyLine_vram (s : State) : (copyLine s).vram = s.vram := by
  simp [copyLine]
@[simp] theorem copyLine_wram (s : State) : (copyLine s).wram = s.wram := by
  simp [copyLine]
@[simp] theorem copyLine_oam (s : State) : (copyLine s).oam = s.oam := by
  simp [copyLine]
@[simp] theorem copyLine_hram (s : State) : (copyLine s).hram = s.hram := by
  simp [copyLine]
@[simp] theorem copyLine_apu (s : State) : (copyLine s).apu = s.apu := by
  simp [copyLine]
@[simp] theorem copyLine_cart (s : State) : (copyLine s).cart = s.cart := by
  simp [copyLine]
@[simp] theorem copyLine_mbc (s : State) : (copyLine s).mbc = s.mbc := by
  simp [copyLine]
@[simp] theorem copyLine_cram (s : State) : (copyLine s).cram = s.cram := by
  simp [copyLine]
@[simp] theorem copyLine_rtc (s : State) : (copyLine s).rtc = s.rtc := by
  simp [copyLine]
@[simp] theorem copyLine_params (s : State) : (copyLine s).params = s.params := by
  simp [copyLine]
@[simp] theorem finishLine_cpu (s : State) : (finishLine s).cpu = s.cpu := by
  simp [finishLine]
@[simp] theorem finishLine_fault (s : State) : (finishLine s).fault = s.fault := by
  simp [finishLine]
@[simp] theorem finishLine_clock (s : State) : (finishLine s).clock = s.clock := by
  simp [finishLine]
@[simp] theorem finishLine_ifReg (s : State) : (finishLine s).ifReg = s.ifReg := by
  simp [finishLine]
@[simp] theorem finishLine_ieReg (s : State) : (finishLine s).ieReg = s.ieReg := by
  simp [finishLine]
@[simp] theorem finishLine_timer (s : State) : (finishLine s).timer = s.timer := by
  simp [finishLine]
@[simp] theorem finishLine_key1Armed (s : State) : (finishLine s).key1Armed = s.key1Armed := by
  simp [finishLine]
@[simp] theorem finishLine_serial (s : State) : (finishLine s).serial = s.serial := by
  simp [finishLine]
@[simp] theorem finishLine_joypad (s : State) : (finishLine s).joypad = s.joypad := by
  simp [finishLine]
@[simp] theorem finishLine_bus (s : State) : (finishLine s).bus = s.bus := by
  simp [finishLine]
@[simp] theorem finishLine_vram (s : State) : (finishLine s).vram = s.vram := by
  simp [finishLine]
@[simp] theorem finishLine_wram (s : State) : (finishLine s).wram = s.wram := by
  simp [finishLine]
@[simp] theorem finishLine_oam (s : State) : (finishLine s).oam = s.oam := by
  simp [finishLine]
@[simp] theorem finishLine_hram (s : State) : (finishLine s).hram = s.hram := by
  simp [finishLine]
@[simp] theorem finishLine_apu (s : State) : (finishLine s).apu = s.apu := by
  simp [finishLine]
@[simp] theorem finishLine_cart (s : State) : (finishLine s).cart = s.cart := by
  simp [finishLine]
@[simp] theorem finishLine_mbc (s : State) : (finishLine s).mbc = s.mbc := by
  simp [finishLine]
@[simp] theorem finishLine_cram (s : State) : (finishLine s).cram = s.cram := by
  simp [finishLine]
@[simp] theorem finishLine_rtc (s : State) : (finishLine s).rtc = s.rtc := by
  simp [finishLine]
@[simp] theorem finishLine_params (s : State) : (finishLine s).params = s.params := by
  simp [finishLine]
@[simp] theorem compareLy_cpu (s : State) : (compareLy s).cpu = s.cpu := by
  simp [compareLy]
@[simp] theorem compareLy_fault (s : State) : (compareLy s).fault = s.fault := by
  simp [compareLy]
@[simp] theorem compareLy_clock (s : State) : (compareLy s).clock = s.clock := by
  simp [compareLy]
@[simp] theorem compareLy_ieReg (s : State) : (compareLy s).ieReg = s.ieReg := by
  simp [compareLy]
@[simp] theorem compareLy_timer (s : State) : (compareLy s).timer = s.timer := by
  simp [compareLy]
@[simp] theorem compareLy_key1Armed (s : State) : (compareLy s).key1Armed = s.key1Armed := by
  simp [compareLy]
@[simp] theorem compareLy_serial (s : State) : (compareLy s).serial = s.serial := by
  simp [compareLy]
@[simp] theorem compareLy_joypad (s : State) : (compareLy s).joypad = s.joypad := by
  simp [compareLy]
@[simp] theorem compareLy_bus (s : State) : (compareLy s).bus = s.bus := by
  simp [compareLy]
@[simp] theorem compareLy_vram (s : State) : (compareLy s).vram = s.vram := by
  simp [compareLy]
@[simp] theorem compareLy_wram (s : State) : (compareLy s).wram = s.wram := by
  simp [compareLy]
@[simp] theorem compareLy_oam (s : State) : (compareLy s).oam = s.oam := by
  simp [compareLy]
@[simp] theorem compareLy_hram (s : State) : (compareLy s).hram = s.hram := by
  simp [compareLy]
@[simp] theorem compareLy_ppu (s : State) : (compareLy s).ppu = s.ppu := by
  simp [compareLy]
@[simp] theorem compareLy_apu (s : State) : (compareLy s).apu = s.apu := by
  simp [compareLy]
@[simp] theorem compareLy_cart (s : State) : (compareLy s).cart = s.cart := by
  simp [compareLy]
@[simp] theorem compareLy_mbc (s : State) : (compareLy s).mbc = s.mbc := by
  simp [compareLy]
@[simp] theorem compareLy_cram (s : State) : (compareLy s).cram = s.cram := by
  simp [compareLy]
@[simp] theorem compareLy_rtc (s : State) : (compareLy s).rtc = s.rtc := by
  simp [compareLy]
@[simp] theorem compareLy_params (s : State) : (compareLy s).params = s.params := by
  simp [compareLy]
@[simp] theorem enterMode2_cpu (s : State) : (enterMode2 s).cpu = s.cpu := by
  simp [enterMode2]
@[simp] theorem enterMode2_fault (s : State) : (enterMode2 s).fault = s.fault := by
  simp [enterMode2]
@[simp] theorem enterMode2_clock (s : State) : (enterMode2 s).clock = s.clock := by
  simp [enterMode2]
@[simp] theorem enterMode2_ieReg (s : State) : (enterMode2 s).ieReg = s.ieReg := by
  simp [enterMode2]
@[simp] theorem enterMode2_timer (s : State) : (enterMode2 s).timer = s.timer := by
  simp [enterMode2]
@[simp] theorem enterMode2_key1Armed (s : State) : (enterMode2 s).key1Armed = s.key1Armed := by
  simp [enterMode2]
@[simp] theorem enterMode2_serial (s : State) : (enterMode2 s).serial = s.serial := by
  simp [enterMode2]
@[simp] theorem enterMode2_joypad (s : State) : (enterMode2 s).joypad = s.joypad := by
  simp [enterMode2]
@[simp] theorem enterMode2_bus (s : State) : (enterMode2 s).bus = s.bus := by
  simp [enterMode2]
@[simp] theorem enterMode2_vram (s : State) : (enterMode2 s).vram = s.vram := by
  simp [enterMode2]
@[simp] theorem enterMode2_wram (s : State) : (enterMode2 s).wram = s.wram := by
  simp [enterMode2]
@[simp] theorem enterMode2_oam (s : State) : (enterMode2 s).oam = s.oam := by
  simp [enterMode2]
@[simp] theorem enterMode2_hram (s : State) : (enterMode2 s).hram = s.hram := by
  simp [enterMode2]
@[simp] theorem enterMode2_apu (s : State) : (enterMode2 s).apu = s.apu := by
  simp [enterMode2]
@[simp] theorem enterMode2_cart (s : State) : (enterMode2 s).cart = s.cart := by
  simp [enterMode2]
@[simp] theorem enterMode2_mbc (s : State) : (enterMode2 s).mbc = s.mbc := by
  simp [enterMode2]
@[simp] theorem enterMode2_cram (s : State) : (enterMode2 s).cram = s.cram := by
  simp [enterMode2]
@[simp] theorem enterMode2_rtc (s : State) : (enterMode2 s).rtc = s.rtc := by
  simp [enterMode2]
@[simp] theorem enterMode2_params (s : State) : (enterMode2 s).params = s.params := by
  simp [enterMode2]
@[simp] theorem enterMode1_cpu (s : State) : (enterMode1 s).cpu = s.cpu := by
  simp [enterMode1]
@[simp] theorem enterMode1_fault (s : State) : (enterMode1 s).fault = s.fault := by
  simp [enterMode1]
@[simp] theorem enterMode1_clock (s : State) : (enterMode1 s).clock = s.clock := by
  simp [enterMode1]
@[simp] theorem enterMode1_ieReg (s : State) : (enterMode1 s).ieReg = s.ieReg := by
  simp [enterMode1]
@[simp] theorem enterMode1_timer (s : State) : (enterMode1 s).timer = s.timer := by
  simp [enterMode1]
@[simp] theorem enterMode1_key1Armed (s : State) : (enterMode1 s).key1Armed = s.key1Armed := by
  simp [enterMode1]
@[simp] theorem enterMode1_serial (s : State) : (enterMode1 s).serial = s.serial := by
  simp [enterMode1]
@[simp] theorem enterMode1_joypad (s : State) : (enterMode1 s).joypad = s.joypad := by
  simp [enterMode1]
@[simp] theorem enterMode1_bus (s : State) : (enterMode1 s).bus = s.bus := by
  simp [enterMode1]
@[simp] theorem enterMode1_vram (s : State) : (enterMode1 s).vram = s.vram := by
  simp [enterMode1]
@[simp] theorem enterMode1_wram (s : State) : (enterMode1 s).wram = s.wram := by
  simp [enterMode1]
@[simp] theorem enterMode1_oam (s : State) : (enterMode1 s).oam = s.oam := by
  simp [enterMode1]
@[simp] theorem enterMode1_hram (s : State) : (enterMode1 s).hram = s.hram := by
  simp [enterMode1]
@[simp] theorem enterMode1_apu (s : State) : (enterMode1 s).apu = s.apu := by
  simp [enterMode1]
@[simp] theorem enterMode1_cart (s : State) : (enterMode1 s).cart = s.cart := by
  simp [enterMode1]
@[simp] theorem enterMode1_mbc (s : State) : (enterMode1 s).mbc = s.mbc := by
  simp [enterMode1]
@[simp] theorem enterMode1_cram (s : State) : (enterMode1 s).cram = s.cram := by
  simp [enterMode1]
@[simp] theorem enterMode1_rtc (s : State) : (enterMode1 s).rtc = s.rtc := by
  simp [enterMode1]
@[simp] theorem enterMode1_params (s : State) : (enterMode1 s).params = s.params := by
  simp [enterMode1]
@[simp] theorem enterMode3_cpu (s : State) : (enterMode3 s).cpu = s.cpu := by
  simp [enterMode3]
@[simp] theorem enterMode3_fault (s : State) : (enterMode3 s).fault = s.fault := by
  simp [enterMode3]
@[simp] theorem enterMode3_clock (s : State) : (enterMode3 s).clock = s.clock := by
  simp [enterMode3]
@[simp] theorem enterMode3_ifReg (s : State) : (enterMode3 s).ifReg = s.ifReg := by
  simp [enterMode3]
@[simp] theorem enterMode3_ieReg (s : State) : (enterMode3 s).ieReg = s.ieReg := by
  simp [enterMode3]
@[simp] theorem enterMode3_timer (s : State) : (enterMode3 s).timer = s.timer := by
  simp [enterMode3]
@[simp] theorem enterMode3_key1Armed (s : State) : (enterMode3 s).key1Armed = s.key1Armed := by
  simp [enterMode3]
@[simp] theorem enterMode3_serial (s : State) : (enterMode3 s).serial = s.serial := by
  simp [enterMode3]
@[simp] theorem enterMode3_joypad (s : State) : (enterMode3 s).joypad = s.joypad := by
  simp [enterMode3]
@[simp] theorem enterMode3_bus (s : State) : (enterMode3 s).bus = s.bus := by
  simp [enterMode3]
@[simp] theorem enterMode3_vram (s : State) : (enterMode3 s).vram = s.vram := by
  simp [enterMode3]
@[simp] theorem enterMode3_wram (s : State) : (enterMode3 s).wram = s.wram := by
  simp [enterMode3]
@[simp] theorem enterMode3_oam (s : State) : (enterMode3 s).oam = s.oam := by
  simp [enterMode3]
@[simp] theorem enterMode3_hram (s : State) : (enterMode3 s).hram = s.hram := by
  simp [enterMode3]
@[simp] theorem enterMode3_apu (s : State) : (enterMode3 s).apu = s.apu := by
  simp [enterMode3]
@[simp] theorem enterMode3_cart (s : State) : (enterMode3 s).cart = s.cart := by
  simp [enterMode3]
@[simp] theorem enterMode3_mbc (s : State) : (enterMode3 s).mbc = s.mbc := by
  simp [enterMode3]
@[simp] theorem enterMode3_cram (s : State) : (enterMode3 s).cram = s.cram := by
  simp [enterMode3]
@[simp] theorem enterMode3_rtc (s : State) : (enterMode3 s).rtc = s.rtc := by
  simp [enterMode3]
@[simp] theorem enterMode3_params (s : State) : (enterMode3 s).params = s.params := by
  simp [enterMode3]
@[simp] theorem displayOff_cpu (s : State) : (displayOff s).cpu = s.cpu := by
  simp [displayOff]
@[simp] theorem displayOff_fault (s : State) : (displayOff s).fault = s.fault := by
  simp [displayOff]
@[simp] theorem displayOff_clock (s : State) : (displayOff s).clock = s.clock := by
  simp [displayOff]
@[simp] theorem displayOff_ifReg (s : State) : (displayOff s).ifReg = s.ifReg := by
  simp [displayOff]
@[simp] theorem displayOff_ieReg (s : State) : (displayOff s).ieReg = s.ieReg := by
  simp [displayOff]
@[simp] theorem displayOff_timer (s : State) : (displayOff s).timer = s.timer := by
  simp [displayOff]
@[simp] theorem displayOff_key1Armed (s : State) : (displayOff s).key1Armed = s.key1Armed := by
  simp [displayOff]
@[simp] theorem displayOff_serial (s : State) : (displayOff s).serial = s.serial := by
  simp [displayOff]
@[simp] theorem displayOff_joypad (s : State) : (displayOff s).joypad = s.joypad := by
  simp [displayOff]
@[simp] theorem displayOff_bus (s : State) : (displayOff s).bus = s.bus := by
  simp [displayOff]
@[simp] theorem displayOff_vram (s : State) : (displayOff s).vram = s.vram := by
  simp [displayOff]
@[simp] theorem displayOff_wram (s : State) : (displayOff s).wram = s.wram := by
  simp [displayOff]
@[simp] theorem displayOff_oam (s : State) : (displayOff s).oam = s.oam := by
  simp [displayOff]
@[simp] theorem displayOff_hram (s : State) : (displayOff s).hram = s.hram := by
  simp [displayOff]
@[simp] theorem displayOff_apu (s : State) : (displayOff s).apu = s.apu := by
  simp [displayOff]
@[simp] theorem displayOff_cart (s : State) : (displayOff s).cart = s.cart := by
  simp [displayOff]
@[simp] theorem displayOff_mbc (s : State) : (displayOff s).mbc = s.mbc := by
  simp [displayOff]
@[simp] theorem displayOff_cram (s : State) : (displayOff s).cram = s.cram := by
  simp [displayOff]
@[simp] theorem displayOff_rtc (s : State) : (displayOff s).rtc = s.rtc := by
  simp [displayOff]
@[simp] theorem displayOff_params (s : State) : (displayOff s).params = s.params := by
  simp [displayOff]
@[simp] theorem displayOn_cpu (s : State) : (displayOn s).cpu = s.cpu := by
  simp [displayOn]
@[simp] theorem displayOn_fault (s : State) : (displayOn s).fault = s.fault := by
  simp [displayOn]
@[simp] theorem displayOn_clock (s : State) : (displayOn s).clock = s.clock := by
  simp [displayOn]
@[simp] theorem displayOn_ieReg (s : State) : (displayOn s).ieReg = s.ieReg := by
  simp [displayOn]
@[simp] theorem displayOn_timer (s : State) : (displayOn s).timer = s.timer := by
  simp [displayOn]
@[simp] theorem displayOn_key1Armed (s : State) : (displayOn s).key1Armed = s.key1Armed := by
  simp [displayOn]
@[simp] theorem displayOn_serial (s : State) : (displayOn s).serial = s.serial := by
  simp [displayOn]
@[simp] theorem displayOn_joypad (s : State) : (displayOn s).joypad = s.joypad := by
  simp [displayOn]
@[simp] theorem displayOn_bus (s : State) : (displayOn s).bus = s.bus := by
  simp [displayOn]
@[simp] theorem displayOn_vram (s : State) : (displayOn s).vram = s.vram := by
  simp [displayOn]
@[simp] theorem displayOn_wram (s : State) : (displayOn s).wram = s.wram := by
  simp [displayOn]
@[simp] theorem displayOn_oam (s : State) : (displayOn s).oam = s.oam := by
  simp [displayOn]
@[simp] theorem displayOn_hram (s : State) : (displayOn s).hram = s.hram := by
  simp [displayOn]
@[simp] theorem displayOn_apu (s : State) : (displayOn s).apu = s.apu := by
  simp [displayOn]
@[simp] theorem displayOn_cart (s : State) : (displayOn s).cart = s.cart := by
  simp [displayOn]
@[simp] theorem displayOn_mbc (s : State) : (displayOn s).mbc = s.mbc := by
  simp [displayOn]
@[simp] theorem displayOn_cram (s : State) : (displayOn s).cram = s.cram := by
  simp [displayOn]
@[simp] theorem displayOn_rtc (s : State) : (displayOn s).rtc = s.rtc := by
  simp [displayOn]
@[simp] theorem displayOn_params (s : State) : (displayOn s).params = s.params := by
  simp [displayOn]
@[simp] theorem writeLcdc_cpu (v : Byte) (s : State) : (writeLcdc v s).cpu = s.cpu := by
  unfold writeLcdc; dsimp only; split <;> simp
@[simp] theorem writeLcdc_fault (v : Byte) (s : State) : (writeLcdc v s).fault = s.fault := by
  unfold writeLcdc; dsimp only; split <;> simp
@[simp] theorem writeLcdc_clock (v : Byte) (s : State) : (writeLcdc v s).clock = s.clock := by
  unfold writeLcdc; dsimp only; split <;> simp
@[simp] theorem writeLcdc_ieReg (v : Byte) (s : State) : (writeLcdc v s).ieReg = s.ieReg := by
  unfold writeLcdc; dsimp only; split <;> simp
@[simp] theorem writeLcdc_timer (v : Byte) (s : State) : (writeLcdc v s).timer = s.timer := by
  unfold writeLcdc; dsimp only; split <;> simp
@[simp] theorem writeLcdc_key1Armed (v : Byte) (s : State) : (writeLcdc v s).key1Armed = s.key1Armed := by
  unfold writeLcdc; dsimp only; split <;> simp
@[simp] theorem writeLcdc_serial (v : Byte) (s : State) : (writeLcdc v s).serial = s.serial := by
  unfold writeLcdc; dsimp only; split <;> simp
@[simp] theorem writeLcdc_joypad (v : Byte) (s : State) : (writeLcdc v s).joypad = s.joypad := by
  unfold writeLcdc; dsimp only; split <;> simp
@[simp] theorem writeLcdc_bus (v : Byte) (s : State) : (writeLcdc v s).bus = s.bus := by
  unfold writeLcdc; dsimp only; split <;> simp
@[simp] theorem writeLcdc_vram (v : Byte) (s : State) : (writeLcdc v s).vram = s.vram := by
  unfold writeLcdc; dsimp only; split <;> simp
@[simp] theorem writeLcdc_wram (v : Byte) (s : State) : (writeLcdc v s).wram = s.wram := by
  unfold writeLcdc; dsimp only; split <;> simp
@[simp] theorem writeLcdc_oam (v : Byte) (s : State) : (writeLcdc v s).oam = s.oam := by
  unfold writeLcdc; dsimp only; split <;> simp
@[simp] theorem writeLcdc_hram (v : Byte) (s : State) : (writeLcdc v s).hram = s.hram := by
  unfold writeLcdc; dsimp only; split <;> simp
@[simp] theorem writeLcdc_apu (v : Byte) (s : State) : (writeLcdc v s).apu = s.apu := by
  unfold writeLcdc; dsimp only; split <;> simp
@[simp] theorem writeLcdc_cart (v : Byte) (s : State) : (writeLcdc v s).cart = s.cart := by
  unfold writeLcdc; dsimp only; split <;> simp
@[simp] theorem writeLcdc_mbc (v : Byte) (s : State) : (writeLcdc v s).mbc = s.mbc := by
  unfold writeLcdc; dsimp only; split <;> simp
@[simp] theorem writeLcdc_cram (v : Byte) (s : State) : (writeLcdc v s).cram = s.cram := by
  unfold writeLcdc; dsimp only; split <;> simp
@[simp] theorem writeLcdc_rtc (v : Byte) (s : State) : (writeLcdc v s).rtc = s.rtc := by
  unfold writeLcdc; dsimp only; split <;> simp
@[simp] theorem writeLcdc_params (v : Byte) (s : State) : (writeLcdc v s).params = s.params := by
  unfold writeLcdc; dsimp only; split <;> simp
@[simp] theorem writeStat_cpu (v : Byte) (s : State) : (writeStat v s).cpu = s.cpu := by
  simp [writeStat]
@[simp] theorem writeStat_fault (v : Byte) (s : State) : (writeStat v s).fault = s.fault := by
  simp [writeStat]
@[simp] theorem writeStat_clock (v : Byte) (s : State) : (writeStat v s).clock = s.clock := by
  simp [writeStat]
@[simp] theorem writeStat_ifReg (v : Byte) (s : State) : (writeStat v s).ifReg = s.ifReg := by
  simp [writeStat]
@[simp] theorem writeStat_ieReg (v : Byte) (s : State) : (writeStat v s).ieReg = s.ieReg := by
  simp [writeStat]
@[simp] theorem writeStat_timer (v : Byte) (s : State) : (writeStat v s).timer = s.timer := by
  simp [writeStat]
@[simp] theorem writeStat_key1Armed (v : Byte) (s : State) : (writeStat v s).key1Armed = s.key1Armed := by
  simp [writeStat]
@[simp] theorem writeStat_serial (v : Byte) (s : State) : (writeStat v s).serial = s.serial := by
  simp [writeStat]
@[simp] theorem writeStat_joypad (v : Byte) (s : State) : (writeStat v s).joypad = s.joypad := by
  simp [writeStat]
@[simp] theorem writeStat_bus (v : Byte) (s : State) : (writeStat v s).bus = s.bus := by
  simp [writeStat]
@[simp] theorem writeStat_vram (v : Byte) (s : State) : (writeStat v s).vram = s.vram := by
  simp [writeStat]
@[simp] theorem writeStat_wram (v : Byte) (s : State) : (writeStat v s).wram = s.wram := by
  simp [writeStat]
@[simp] theorem writeStat_oam (v : Byte) (s : State) : (writeStat v s).oam = s.oam := by
  simp [writeStat]
@[simp] theorem writeStat_hram (v : Byte) (s : State) : (writeStat v s).hram = s.hram := by
  simp [writeStat]
@[simp] theorem writeStat_apu (v : Byte) (s : State) : (writeStat v s).apu = s.apu := by
  simp [writeStat]
@[simp] theorem writeStat_cart (v : Byte) (s : State) : (writeStat v s).cart = s.cart := by
  simp [writeStat]
@[simp] theorem writeStat_mbc (v : Byte) (s : State) : (writeStat v s).mbc = s.mbc := by
  simp [writeStat]
@[simp] theorem writeStat_cram (v : Byte) (s : State) : (writeStat v s).cram = s.cram := by
  simp [writeStat]
@[simp] theorem writeStat_rtc (v : Byte) (s : State) : (writeStat v s).rtc = s.rtc := by
  simp [writeStat]
@[simp] theorem writeStat_params (v : Byte) (s : State) : (writeStat v s).params = s.params := by
  simp [writeStat]
@[simp] theorem writeLyc_cpu (v : Byte) (s : State) : (writeLyc v s).cpu = s.cpu := by
  unfold writeLyc; dsimp only; split <;> simp
@[simp] theorem writeLyc_fault (v : Byte) (s : State) : (writeLyc v s).fault = s.fault := by
  unfold writeLyc; dsimp only; split <;> simp
@[simp] theorem writeLyc_clock (v : Byte) (s : State) : (writeLyc v s).clock = s.clock := by
  unfold writeLyc; dsimp only; split <;> simp
@[simp] theorem writeLyc_ieReg (v : Byte) (s : State) : (writeLyc v s).ieReg = s.ieReg := by
  unfold writeLyc; dsimp only; split <;> simp
@[simp] theorem writeLyc_timer (v : Byte) (s : State) : (writeLyc v s).timer = s.timer := by
  unfold writeLyc; dsimp only; split <;> simp
@[simp] theorem writeLyc_key1Armed (v : Byte) (s : State) : (writeLyc v s).key1Armed = s.key1Armed := by
  unfold writeLyc; dsimp only; split <;> simp
@[simp] theorem writeLyc_serial (v : Byte) (s : State) : (writeLyc v s).serial = s.serial := by
  unfold writeLyc; dsimp only; split <;> simp
@[simp] theorem writeLyc_joypad (v : Byte) (s : State) : (writeLyc v s).joypad = s.joypad := by
  unfold writeLyc; dsimp only; split <;> simp
@[simp] theorem writeLyc_bus (v : Byte) (s : State) : (writeLyc v s).bus = s.bus := by
  unfold writeLyc; dsimp only; split <;> simp
@[simp] theorem writeLyc_vram (v : Byte) (s : State) : (writeLyc v s).vram = s.vram := by
  unfold writeLyc; dsimp only; split <;> simp
@[simp] theorem writeLyc_wram (v : Byte) (s : State) : (writeLyc v s).wram = s.wram := by
  unfold writeLyc; dsimp only; split <;> simp
@[simp] theorem writeLyc_oam (v : Byte) (s : State) : (writeLyc v s).oam = s.oam := by
  unfold writeLyc; dsimp only; split <;> simp
@[simp] theorem writeLyc_hram (v : Byte) (s : State) : (writeLyc v s).hram = s.hram := by
  unfold writeLyc; dsimp only; split <;> simp
@[simp] theorem writeLyc_apu (v : Byte) (s : State) : (writeLyc v s).apu = s.apu := by
  unfold writeLyc; dsimp only; split <;> simp
@[simp] theorem writeLyc_cart (v : Byte) (s : State) : (writeLyc v s).cart = s.cart := by
  unfold writeLyc; dsimp only; split <;> simp
@[simp] theorem writeLyc_mbc (v : Byte) (s : State) : (writeLyc v s).mbc = s.mbc := by
  unfold writeLyc; dsimp only; split <;> simp
@[simp] theorem writeLyc_cram (v : Byte) (s : State) : (writeLyc v s).cram = s.cram := by
  unfold writeLyc; dsimp only; split <;> simp
@[simp] theorem writeLyc_rtc (v : Byte) (s : State) : (writeLyc v s).rtc = s.rtc := by
  unfold writeLyc; dsimp only; split <;> simp
@[simp] theorem writeLyc_params (v : Byte) (s : State) : (writeLyc v s).params = s.params := by
  unfold writeLyc; dsimp only; split <;> simp
@[simp] theorem writeBgPalette_cpu (v : Byte) (s : State) : (writeBgPalette v s).cpu = s.cpu := by
  simp [writeBgPalette]
@[simp] theorem writeBgPalette_fault (v : Byte) (s : State) : (writeBgPalette v s).fault = s.fault := by
  simp [writeBgPalette]
@[simp] theorem writeBgPalette_clock (v : Byte) (s : State) : (writeBgPalette v s).clock = s.clock := by
  simp [writeBgPalette]
@[simp] theorem writeBgPalette_ifReg (v : Byte) (s : State) : (writeBgPalette v s).ifReg = s.ifReg := by
  simp [writeBgPalette]
@[simp] theorem writeBgPalette_ieReg (v : Byte) (s : State) : (writeBgPalette v s).ieReg = s.ieReg := by
  simp [writeBgPalette]
@[simp] theorem writeBgPalette_timer (v : Byte) (s : State) : (writeBgPalette v s).timer = s.timer := by
  simp [writeBgPalette]
@[simp] theorem writeBgPalette_key1Armed (v : Byte) (s : State) : (writeBgPalette v s).key1Armed = s.key1Armed := by
  simp [writeBgPalette]
@[simp] theorem writeBgPalette_serial (v : Byte) (s : State) : (writeBgPalette v s).serial = s.serial := by
  simp [writeBgPalette]
@[simp] theorem writeBgPalette_joypad (v : Byte) (s : State) : (writeBgPalette v s).joypad = s.joypad := by
  simp [writeBgPalette]
@[simp] theorem writeBgPalette_bus (v : Byte) (s : State) : (writeBgPalette v s).bus = s.bus := by
  simp [writeBgPalette]
@[simp] theorem writeBgPalette_vram (v : Byte) (s : State) : (writeBgPalette v s).vram = s.vram := by
  simp [writeBgPalette]
@[simp] theorem writeBgPalette_wram (v : Byte) (s : State) : (writeBgPalette v s).wram = s.wram := by
  simp [writeBgPalette]
@[simp] theorem writeBgPalette_oam (v : Byte) (s : State) : (writeBgPalette v s).oam = s.oam := by
  simp [writeBgPalette]
@[simp] theorem writeBgPalette_hram (v : Byte) (s : State) : (writeBgPalette v s).hram = s.hram := by
  simp [writeBgPalette]
@[simp] theorem writeBgPalette_apu (v : Byte) (s : State) : (writeBgPalette v s).apu = s.apu := by
  simp [writeBgPalette]
@[simp] theorem writeBgPalette_cart (v : Byte) (s : State) : (writeBgPalette v s).cart = s.cart := by
  simp [writeBgPalette]
@[simp] theorem writeBgPalette_mbc (v : Byte) (s : State) : (writeBgPalette v s).mbc = s.mbc := by
  simp [writeBgPalette]
@[simp] theorem writeBgPalette_cram (v : Byte) (s : State) : (writeBgPalette v s).cram = s.cram := by
  simp [writeBgPalette]
@[simp] theorem writeBgPalette_rtc (v : Byte) (s : State) : (writeBgPalette v s).rtc = s.rtc := by
  simp [writeBgPalette]
@[simp] theorem writeBgPalette_params (v : Byte) (s : State) : (writeBgPalette v s).params = s.params := by
  simp [writeBgPalette]
@[simp] theorem writeObjPalette_cpu (v : Byte) (s : State) : (writeObjPalette v s).cpu = s.cpu := by
  simp [writeObjPalette]
@[simp] theorem writeObjPalette_fault (v : Byte) (s : State) : (writeObjPalette v s).fault = s.fault := by
  simp [writeObjPalette]
@[simp] theorem writeObjPalette_clock (v : Byte) (s : State) : (writeObjPalette v s).clock = s.clock := by
  simp [writeObjPalette]
@[simp] theorem writeObjPalette_ifReg (v : Byte) (s : State) : (writeObjPalette v s).ifReg = s.ifReg := by
  simp [writeObjPalette]
@[simp] theorem writeObjPalette_ieReg (v : Byte) (s : State) : (writeObjPalette v s).ieReg = s.ieReg := by
  simp [writeObjPalette]
@[simp] theorem writeObjPalette_timer (v : Byte) (s : State) : (writeObjPalette v s).timer = s.timer := by
  simp [writeObjPalette]
@[simp] theorem writeObjPalette_key1Armed (v : Byte) (s : State) : (writeObjPalette v s).key1Armed = s.key1Armed := by
  simp [writeObjPalette]
@[simp] theorem writeObjPalette_serial (v : Byte) (s : State) : (writeObjPalette v s).serial = s.serial := by
  simp [writeObjPalette]
@[simp] theorem writeObjPalette_joypad (v : Byte) (s : State) : (writeObjPalette v s).joypad = s.joypad := by
  simp [writeObjPalette]
@[simp] theorem writeObjPalette_bus (v : Byte) (s : State) : (writeObjPalette v s).bus = s.bus := by
  simp [writeObjPalette]
@[simp] theorem writeObjPalette_vram (v : Byte) (s : State) : (writeObjPalette v s).vram = s.vram := by
  simp [writeObjPalette]
@[simp] theorem writeObjPalette_wram (v : Byte) (s : State) : (writeObjPalette v s).wram = s.wram := by
  simp [writeObjPalette]
@[simp] theorem writeObjPalette_oam (v : Byte) (s : State) : (writeObjPalette v s).oam = s.oam := by
  simp [writeObjPalette]
@[simp] theorem writeObjPalette_hram (v : Byte) (s : State) : (writeObjPalette v s).hram = s.hram := by
  simp [writeObjPalette]
@[simp] theorem writeObjPalette_apu (v : Byte) (s : State) : (writeObjPalette v s).apu = s.apu := by
  simp [writeObjPalette]
@[simp] theorem writeObjPalette_cart (v : Byte) (s : State) : (writeObjPalette v s).cart = s.cart := by
  simp [writeObjPalette]
@[simp] theorem writeObjPalette_mbc (v : Byte) (s : State) : (writeObjPalette v s).mbc = s.mbc := by
  simp [writeObjPalette]
@[simp] theorem writeObjPalette_cram (v : Byte) (s : State) : (writeObjPalette v s).cram = s.cram := by
  simp [writeObjPalette]
@[simp] theorem writeObjPalette_rtc (v : Byte) (s : State) : (writeObjPalette v s).rtc = s.rtc := by
  simp [writeObjPalette]
@[simp] theorem writeObjPalette_params (v : Byte) (s : State) : (writeObjPalette v s).params = s.params := by
  simp [writeObjPalette]
@[simp] theorem writeP1_cpu (v : Byte) (s : State) : (writeP1 v s).cpu = s.cpu := by
  simp [writeP1]
@[simp] theorem writeP1_fault (v : Byte) (s : State) : (writeP1 v s).fault = s.fault := by
  simp [writeP1]
@[simp] theorem writeP1_clock (v : Byte) (s : State) : (writeP1 v s).clock = s.clock := by
  simp [writeP1]
@[simp] theorem writeP1_ieReg (v : Byte) (s : State) : (writeP1 v s).ieReg = s.ieReg := by
  simp [writeP1]
@[simp] theorem writeP1_timer (v : Byte) (s : State) : (writeP1 v s).timer = s.timer := by
  simp [writeP1]
@[simp] theorem writeP1_key1Armed (v : Byte) (s : State) : (writeP1 v s).key1Armed = s.key1Armed := by
  simp [writeP1]
@[simp] theorem writeP1_serial (v : Byte) (s : State) : (writeP1 v s).serial = s.serial := by
  simp [writeP1]
@[simp] theorem writeP1_bus (v : Byte) (s : State) : (writeP1 v s).bus = s.bus := by
  simp [writeP1]
@[simp] theorem writeP1_vram (v : Byte) (s : State) : (writeP1 v s).vram = s.vram := by
  simp [writeP1]
@[simp] theorem writeP1_wram (v : Byte) (s : State) : (writeP1 v s).wram = s.wram := by
  simp [writeP1]
@[simp] theorem writeP1_oam (v : Byte) (s : State) : (writeP1 v s).oam = s.oam := by
  simp [writeP1]
@[simp] theorem writeP1_hram (v : Byte) (s : State) : (writeP1 v s).hram = s.hram := by
  simp [writeP1]
@[simp] theorem writeP1_ppu (v : Byte) (s : State) : (writeP1 v s).ppu = s.ppu := by
  simp [writeP1]
@[simp] theorem writeP1_apu (v : Byte) (s : State) : (writeP1 v s).apu = s.apu := by
  simp [writeP1]
@[simp] theorem writeP1_cart (v : Byte) (s : State) : (writeP1 v s).cart = s.cart := by
  simp [writeP1]
@[simp] theorem writeP1_mbc (v : Byte) (s : State) : (writeP1 v s).mbc = s.mbc := by
  simp [writeP1]
@[simp] theorem writeP1_cram (v : Byte) (s : State) : (writeP1 v s).cram = s.cram := by
  simp [writeP1]
@[simp] theorem writeP1_rtc (v : Byte) (s : State) : (writeP1 v s).rtc = s.rtc := by
  simp [writeP1]
@[simp] theorem writeP1_params (v : Byte) (s : State) : (writeP1 v s).params = s.params := by
  simp [writeP1]
@[simp] theorem writeSc_cpu (v : Byte) (s : State) : (writeSc v s).cpu = s.cpu := by
  unfold writeSc; dsimp only; split <;> rfl
@[simp] theorem writeSc_fault (v : Byte) (s : State) : (writeSc v s).fault = s.fault := by
  unfold writeSc; dsimp only; split <;> rfl
@[simp] theorem writeSc_clock (v : Byte) (s : State) : (writeSc v s).clock = s.clock := by
  unfold writeSc; dsimp only; split <;> rfl
@[simp] theorem writeSc_ifReg (v : Byte) (s : State) : (writeSc v s).ifReg = s.ifReg := by
  unfold writeSc; dsimp only; split <;> rfl
@[simp] theorem writeSc_ieReg (v : Byte) (s : State) : (writeSc v s).ieReg = s.ieReg := by
  unfold writeSc; dsimp only; split <;> rfl
@[simp] theorem writeSc_timer (v : Byte) (s : State) : (writeSc v s).timer = s.timer := by
  unfold writeSc; dsimp only; split <;> rfl
@[simp] theorem writeSc_key1Armed (v : Byte) (s : State) : (writeSc v s).key1Armed = s.key1Armed := by
  unfold writeSc; dsimp only; split <;> rfl
@[simp] theorem writeSc_joypad (v : Byte) (s : State) : (writeSc v s).joypad = s.joypad := by
  unfold writeSc; dsimp only; split <;> rfl
@[simp] theorem writeSc_bus (v : Byte) (s : State) : (writeSc v s).bus = s.bus := by
  unfold writeSc; dsimp only; split <;> rfl
@[simp] theorem writeSc_vram (v : Byte) (s : State) : (writeSc v s).vram = s.vram := by
  unfold writeSc; dsimp only; split <;> rfl
@[simp] theorem writeSc_wram (v : Byte) (s : State) : (writeSc v s).wram = s.wram := by
  unfold writeSc; dsimp only; split <;> rfl
@[simp] theorem writeSc_oam (v : Byte) (s : State) : (writeSc v s).oam = s.oam := by
  unfold writeSc; dsimp only; split <;> rfl
@[simp] theorem writeSc_hram (v : Byte) (s : State) : (writeSc v s).hram = s.hram := by
  unfold writeSc; dsimp only; split <;> rfl
@[simp] theorem writeSc_ppu (v : Byte) (s : State) : (writeSc v s).ppu = s.ppu := by
  unfold writeSc; dsimp only; split <;> rfl
@[simp] theorem writeSc_apu (v : Byte) (s : State) : (writeSc v s).apu = s.apu := by
  unfold writeSc; dsimp only; split <;> rfl
@[simp] theorem writeSc_cart (v : Byte) (s : State) : (writeSc v s).cart = s.cart := by
  unfold writeSc; dsimp only; split <;> rfl
@[simp] theorem writeSc_mbc (v : Byte) (s : State) : (writeSc v s).mbc = s.mbc := by
  unfold writeSc; dsimp only; split <;> rfl
@[simp] theorem writeSc_cram (v : Byte) (s : State) : (writeSc v s).cram = s.cram := by
  unfold writeSc; dsimp only; split <;> rfl
@[simp] theorem writeSc_rtc (v : Byte) (s : State) : (writeSc v s).rtc = s.rtc := by
  unfold writeSc; dsimp only; split <;> rfl
@[simp] theorem writeSc_params (v : Byte) (s : State) : (writeSc v s).params = s.params := by
  unfold writeSc; dsimp only; split <;> rfl
@[simp] theorem writeDiv_cpu (s : State) : (writeDiv s).cpu = s.cpu := by
  rfl
@[simp] theorem writeDiv_fault (s : State) : (writeDiv s).fault = s.fault := by
  rfl
@[simp] theorem writeDiv_clock (s : State) : (writeDiv s).clock = s.clock := by
  rfl
@[simp] theorem writeDiv_ifReg (s : State) : (writeDiv s).ifReg = s.ifReg := by
  rfl
@[simp] theorem writeDiv_ieReg (s : State) : (writeDiv s).ieReg = s.ieReg := by
  rfl
@[simp] theorem writeDiv_key1Armed (s : State) : (writeDiv s).key1Armed = s.key1Armed := by
  rfl
@[simp] theorem writeDiv_serial (s : State) : (writeDiv s).serial = s.serial := by
  rfl
@[simp] theorem writeDiv_joypad (s : State) : (writeDiv s).joypad = s.joypad := by
  rfl
@[simp] theorem writeDiv_bus (s : State) : (writeDiv s).bus = s.bus := by
  rfl
@[simp] theorem writeDiv_vram (s : State) : (writeDiv s).vram = s.vram := by
  rfl
@[simp] theorem writeDiv_wram (s : State) : (writeDiv s).wram = s.wram := by
  rfl
@[simp] theorem writeDiv_oam (s : State) : (writeDiv s).oam = s.oam := by
  rfl
@[simp] theorem writeDiv_hram (s : State) : (writeDiv s).hram = s.hram := by
  rfl
@[simp] theorem writeDiv_ppu (s : State) : (writeDiv s).ppu = s.ppu := by
  rfl
@[simp] theorem writeDiv_apu (s : State) : (writeDiv s).apu = s.apu := by
  rfl
@[simp] theorem writeDiv_cart (s : State) : (writeDiv s).cart = s.cart := by
  rfl
@[simp] theorem writeDiv_mbc (s : State) : (writeDiv s).mbc = s.mbc := by
  rfl
@[simp] theorem writeDiv_cram (s : State) : (writeDiv s).cram = s.cram := by
  rfl
@[simp] theorem writeDiv_rtc (s : State) : (writeDiv s).rtc = s.rtc := by
  rfl
@[simp] theorem writeDiv_params (s : State) : (writeDiv s).params = s.params := by
  rfl
@[simp] theorem writeHdmaAddress_cpu (r : IoReg) (v : Byte) (s : State) : (writeHdmaAddress r v s).cpu = s.cpu := by
  cases r <;> rfl
@[simp] theorem writeHdmaAddress_fault (r : IoReg) (v : Byte) (s : State) : (writeHdmaAddress r v s).fault = s.fault := by
  cases r <;> rfl
@[simp] theorem writeHdmaAddress_clock (r : IoReg) (v : Byte) (s : State) : (writeHdmaAddress r v s).clock = s.clock := by
  cases r <;> rfl
@[simp] theorem writeHdmaAddress_ifReg (r : IoReg) (v : Byte) (s : State) : (writeHdmaAddress r v s).ifReg = s.ifReg := by
  cases r <;> rfl
@[simp] theorem writeHdmaAddress_ieReg (r : IoReg) (v : Byte) (s : State) : (writeHdmaAddress r v s).ieReg = s.ieReg := by
  cases r <;> rfl
@[simp] theorem writeHdmaAddress_timer (r : IoReg) (v : Byte) (s : State) : (writeHdmaAddress r v s).timer = s.timer := by
  cases r <;> rfl
@[simp] theorem writeHdmaAddress_key1Armed (r : IoReg) (v : Byte) (s : State) : (writeHdmaAddress r v s).key1Armed = s.key1Armed := by
  cases r <;> rfl
@[simp] theorem writeHdmaAddress_serial (r : IoReg) (v : Byte) (s : State) : (writeHdmaAddress r v s).serial = s.serial := by
  cases r <;> rfl
@[simp] theorem writeHdmaAddress_joypad (r : IoReg) (v : Byte) (s : State) : (writeHdmaAddress r v s).joypad = s.joypad := by
  cases r <;> rfl
@[simp] theorem writeHdmaAddress_vram (r : IoReg) (v : Byte) (s : State) : (writeHdmaAddress r v s).vram = s.vram := by
  cases r <;> rfl
@[simp] theorem writeHdmaAddress_wram (r : IoReg) (v : Byte) (s : State) : (writeHdmaAddress r v s).wram = s.wram := by
  cases r <;> rfl
@[simp] theorem writeHdmaAddress_oam (r : IoReg) (v : Byte) (s : State) : (writeHdmaAddress r v s).oam = s.oam := by
  cases r <;> rfl
@[simp] theorem writeHdmaAddress_hram (r : IoReg) (v : Byte) (s : State) : (writeHdmaAddress r v s).hram = s.hram := by
  cases r <;> rfl
@[simp] theorem writeHdmaAddress_ppu (r : IoReg) (v : Byte) (s : State) : (writeHdmaAddress r v s).ppu = s.ppu := by
  cases r <;> rfl
@[simp] theorem writeHdmaAddress_apu (r : IoReg) (v : Byte) (s : State) : (writeHdmaAddress r v s).apu = s.apu := by
  cases r <;> rfl
@[simp] theorem writeHdmaAddress_cart (r : IoReg) (v : Byte) (s : State) : (writeHdmaAddress r v s).cart = s.cart := by
  cases r <;> rfl
@[simp] theorem writeHdmaAddress_mbc (r : IoReg) (v : Byte) (s : State) : (writeHdmaAddress r v s).mbc = s.mbc := by
  cases r <;> rfl
@[simp] theorem writeHdmaAddress_cram (r : IoReg) (v : Byte) (s : State) : (writeHdmaAddress r v s).cram = s.cram := by
  cases r <;> rfl
@[simp] theorem writeHdmaAddress_rtc (r : IoReg) (v : Byte) (s : State) : (writeHdmaAddress r v s).rtc = s.rtc := by
  cases r <;> rfl
@[simp] theorem writeHdmaAddress_params (r : IoReg) (v : Byte) (s : State) : (writeHdmaAddress r v s).params = s.params := by
  cases r <;> rfl
@[simp] theorem writeIoPlain_cpu (r : IoReg) (v : Byte) (s : State) : (writeIoPlain r v s).cpu = s.cpu := by
  cases r <;> simp [writeIoPlain]
@[simp] theorem writeIoPlain_fault (r : IoReg) (v : Byte) (s : State) : (writeIoPlain r v s).fault = s.fault := by
  cases r <;> simp [writeIoPlain]
@[simp] theorem writeIoPlain_clock (r : IoReg) (v : Byte) (s : State) : (writeIoPlain r v s).clock = s.clock := by
  cases r <;> simp [writeIoPlain]
@[simp] theorem writeIoPlain_ieReg (r : IoReg) (v : Byte) (s : State) : (writeIoPlain r v s).ieReg = s.ieReg := by
  cases r <;> simp [writeIoPlain]
@[simp] theorem writeIoPlain_vram (r : IoReg) (v : Byte) (s : State) : (writeIoPlain r v s).vram = s.vram := by
  cases r <;> simp [writeIoPlain]
@[simp] theorem writeIoPlain_wram (r : IoReg) (v : Byte) (s : State) : (writeIoPlain r v s).wram = s.wram := by
  cases r <;> simp [writeIoPlain]
@[simp] theorem writeIoPlain_oam (r : IoReg) (v : Byte) (s : State) : (writeIoPlain r v s).oam = s.oam := by
  cases r <;> simp [writeIoPlain]
@[simp] theorem writeIoPlain_hram (r : IoReg) (v : Byte) (s : State) : (writeIoPlain r v s).hram = s.hram := by
  cases r <;> simp [writeIoPlain]
@[simp] theorem writeIoPlain_cart (r : IoReg) (v : Byte) (s : State) : (writeIoPlain r v s).cart = s.cart := by
  cases r <;> simp [writeIoPlain]
@[simp] theorem writeIoPlain_mbc (r : IoReg) (v : Byte) (s : State) : (writeIoPlain r v s).mbc = s.mbc := by
  cases r <;> simp [writeIoPlain]
@[simp] theorem writeIoPlain_cram (r : IoReg) (v : Byte) (s : State) : (writeIoPlain r v s).cram = s.cram := by
  cases r <;> simp [writeIoPlain]
@[simp] theorem writeIoPlain_rtc (r : IoReg) (v : Byte) (s : State) : (writeIoPlain r v s).rtc = s.rtc := by
  cases r <;> simp [writeIoPlain]
@[simp] theorem writeIoPlain_params (r : IoReg) (v : Byte) (s : State) : (writeIoPlain r v s).params = s.params := by
  cases r <;> simp [writeIoPlain]
@[simp] theorem writeController_cpu (s : State) (a : Nat) (v : Byte) : (writeController s a v).cpu = s.cpu := by
  unfold writeController; repeat' split
  all_goals rfl
@[simp] theorem writeController_fault (s : State) (a : Nat) (v : Byte) : (writeController s a v).fault = s.fault := by
  unfold writeController; repeat' split
  all_goals rfl
@[simp] theorem writeController_clock (s : State) (a : Nat) (v : Byte) : (writeController s a v).clock = s.clock := by
  unfold writeController; repeat' split
  all_goals rfl
@[simp] theorem writeController_ifReg (s : State) (a : Nat) (v : Byte) : (writeController s a v).ifReg = s.ifReg := by
  unfold writeController; repeat' split
  all_goals rfl
@[simp] theorem writeController_ieReg (s : State) (a : Nat) (v : Byte) : (writeController s a v).ieReg = s.ieReg := by
  unfold writeController; repeat' split
  all_goals rfl
@[simp] theorem writeController_timer (s : State) (a : Nat) (v : Byte) : (writeController s a v).timer = s.timer := by
  unfold writeController; repeat' split
  all_goals rfl
@[simp] theorem writeController_key1Armed (s : State) (a : Nat) (v : Byte) : (writeController s a v).key1Armed = s.key1Armed := by
  unfold writeController; repeat' split
  all_goals rfl
@[simp] theorem writeController_serial (s : State) (a : Nat) (v : Byte) : (writeController s a v).serial = s.serial := by
  unfold writeController; repeat' split
  all_goals rfl
@[simp] theorem writeController_joypad (s : State) (a : Nat) (v : Byte) : (writeController s a v).joypad = s.joypad := by
  unfold writeController; repeat' split
  all_goals rfl
@[simp] theorem writeController_bus (s : State) (a : Nat) (v : Byte) : (writeController s a v).bus = s.bus := by
  unfold writeController; repeat' split
  all_goals rfl
@[simp] theorem writeController_vram (s : State) (a : Nat) (v : Byte) : (writeController s a v).vram = s.vram := by
  unfold writeController; repeat' split
  all_goals rfl
@[simp] theorem writeController_wram (s : State) (a : Nat) (v : Byte) : (writeController s a v).wram = s.wram := by
  unfold writeController; repeat' split
  all_goals rfl
@[simp] theorem writeController_oam (s : State) (a : Nat) (v : Byte) : (writeController s a v).oam = s.oam := by
  unfold writeController; repeat' split
  all_goals rfl
@[simp] theorem writeController_hram (s : State) (a : Nat) (v : Byte) : (writeController s a v).hram = s.hram := by
  unfold writeController; repeat' split
  all_goals rfl
@[simp] theorem writeController_ppu (s : State) (a : Nat) (v : Byte) : (writeController s a v).ppu = s.ppu := by
  unfold writeController; repeat' split
  all_goals rfl
@[simp] theorem writeController_apu (s : State) (a : Nat) (v : Byte) : (writeController s a v).apu = s.apu := by
  unfold writeController; repeat' split
  all_goals rfl
@[simp] theorem writeController_cart (s : State) (a : Nat) (v : Byte) : (writeController s a v).cart = s.cart := by
  unfold writeController; repeat' split
  all_goals rfl
@[simp] theorem writeController_cram (s : State) (a : Nat) (v : Byte) : (writeController s a v).cram = s.cram := by
  unfold writeController; repeat' split
  all_goals rfl
@[simp] theorem writeController_params (s : State) (a : Nat) (v : Byte) : (writeController s a v).params = s.params := by
  unfold writeController; repeat' split
  all_goals rfl
@[simp] theorem writeWindow_cpu (s : State) (a : Nat) (v : Byte) : (writeWindow s a v).cpu = s.cpu := by
  unfold writeWindow; repeat' split
  all_goals rfl
@[simp] theorem writeWindow_fault (s : State) (a : Nat) (v : Byte) : (writeWindow s a v).fault = s.fault := by
  unfold writeWindow; repeat' split
  all_goals rfl
@[simp] theorem writeWindow_clock (s : State) (a : Nat) (v : Byte) : (writeWindow s a v).clock = s.clock := by
  unfold writeWindow; repeat' split
  all_goals rfl
@[simp] theorem writeWindow_ifReg (s : State) (a : Nat) (v : Byte) : (writeWindow s a v).ifReg = s.ifReg := by
  unfold writeWindow; repeat' split
  all_goals rfl
@[simp] theorem writeWindow_ieReg (s : State) (a : Nat) (v : Byte) : (writeWindow s a v).ieReg = s.ieReg := by
  unfold writeWindow; repeat' split
  all_goals rfl
@[simp] theorem writeWindow_timer (s : State) (a : Nat) (v : Byte) : (writeWindow s a v).timer = s.timer := by
  unfold writeWindow; repeat' split
  all_goals rfl
@[simp] theorem writeWindow_key1Armed (s : State) (a : Nat) (v : Byte) : (writeWindow s a v).key1Armed = s.key1Armed := by
  unfold writeWindow; repeat' split
  all_goals rfl
@[simp] theorem writeWindow_serial (s : State) (a : Nat) (v : Byte) : (writeWindow s a v).serial = s.serial := by
  unfold writeWindow; repeat' split
  all_goals rfl
@[simp] theorem writeWindow_joypad (s : State) (a : Nat) (v : Byte) : (writeWindow s a v).joypad = s.joypad := by
  unfold writeWindow; repeat' split
  all_goals rfl
@[simp] theorem writeWindow_bus (s : State) (a : Nat) (v : Byte) : (writeWindow s a v).bus = s.bus := by
  unfold writeWindow; repeat' split
  all_goals rfl
@[simp] theorem writeWindow_vram (s : State) (a : Nat) (v : Byte) : (writeWindow s a v).vram = s.vram := by
  unfold writeWindow; repeat' split
  all_goals rfl
@[simp] theorem writeWindow_wram (s : State) (a : Nat) (v : Byte) : (writeWindow s a v).wram = s.wram := by
  unfold writeWindow; repeat' split
  all_goals rfl
@[simp] theorem writeWindow_oam (s : State) (a : Nat) (v : Byte) : (writeWindow s a v).oam = s.oam := by
  unfold writeWindow; repeat' split
  all_goals rfl
@[simp] theorem writeWindow_hram (s : State) (a : Nat) (v : Byte) : (writeWindow s a v).hram = s.hram := by
  unfold writeWindow; repeat' split
  all_goals rfl
@[simp] theorem writeWindow_ppu (s : State) (a : Nat) (v : Byte) : (writeWindow s a v).ppu = s.ppu := by
  unfold writeWindow; repeat' split
  all_goals rfl
@[simp] theorem writeWindow_apu (s : State) (a : Nat) (v : Byte) : (writeWindow s a v).apu = s.apu := by
  unfold writeWindow; repeat' split
  all_goals rfl
@[simp] theorem writeWindow_cart (s : State) (a : Nat) (v : Byte) : (writeWindow s a v).cart = s.cart := by
  unfold writeWindow; repeat' split
  all_goals rfl
@[simp] theorem writeWindow_mbc (s : State) (a : Nat) (v : Byte) : (writeWindow s a v).mbc = s.mbc := by
  unfold writeWindow; repeat' split
  all_goals rfl
@[simp] theorem writeWindow_params (s : State) (a : Nat) (v : Byte) : (writeWindow s a v).params = s.params := by
  unfold writeWindow; repeat' split
  all_goals rfl
@[simp] theorem line153Event_cpu (s : State) : (line153Event s).cpu = s.cpu := by
  unfold line153Event; split <;> simp
@[simp] theorem line153Event_fault (s : State) : (line153Event s).fault = s.fault := by
  unfold line153Event; split <;> simp
@[simp] theorem line153Event_clock (s : State) : (line153Event s).clock = s.clock := by
  unfold line153Event; split <;> simp
@[simp] theorem line153Event_ieReg (s : State) : (line153Event s).ieReg = s.ieReg := by
  unfold line153Event; split <;> simp
@[simp] theorem line153Event_timer (s : State) : (line153Event s).timer = s.timer := by
  unfold line153Event; split <;> simp
@[simp] theorem line153Event_key1Armed (s : State) : (line153Event s).key1Armed = s.key1Armed := by
  unfold line153Event; split <;> simp
@[simp] theorem line153Event_serial (s : State) : (line153Event s).serial = s.serial := by
  unfold line153Event; split <;> simp
@[simp] theorem line153Event_joypad (s : State) : (line153Event s).joypad = s.joypad := by
  unfold line153Event; split <;> simp
@[simp] theorem line153Event_bus (s : State) : (line153Event s).bus = s.bus := by
  unfold line153Event; split <;> simp
@[simp] theorem line153Event_vram (s : State) : (line153Event s).vram = s.vram := by
  unfold line153Event; split <;> simp
@[simp] theorem line153Event_wram (s : State) : (line153Event s).wram = s.wram := by
  unfold line153Event; split <;> simp
@[simp] theorem line153Event_oam (s : State) : (line153Event s).oam = s.oam := by
  unfold line153Event; split <;> simp
@[simp] theorem line153Event_hram (s : State) : (line153Event s).hram = s.hram := by
  unfold line153Event; split <;> simp
@[simp] theorem line153Event_apu (s : State) : (line153Event s).apu = s.apu := by
  unfold line153Event; split <;> simp
@[simp] theorem line153Event_cart (s : State) : (line153Event s).cart = s.cart := by
  unfold line153Event; split <;> simp
@[simp] theorem line153Event_mbc (s : State) : (line153Event s).mbc = s.mbc := by
  unfold line153Event; split <;> simp
@[simp] theorem line153Event_cram (s : State) : (line153Event s).cram = s.cram := by
  unfold line153Event; split <;> simp
@[simp] theorem line153Event_rtc (s : State) : (line153Event s).rtc = s.rtc := by
  unfold line153Event; split <;> simp
@[simp] theorem line153Event_params (s : State) : (line153Event s).params = s.params := by
  unfold line153Event; split <;> simp
@[simp] theorem firstLine_cpu (s : State) : (firstLine s).cpu = s.cpu := by
  simp [firstLine]
@[simp] theorem firstLine_fault (s : State) : (firstLine s).fault = s.fault := by
  simp [firstLine]
@[simp] theorem firstLine_clock (s : State) : (firstLine s).clock = s.clock := by
  simp [firstLine]
@[simp] theorem firstLine_ieReg (s : State) : (firstLine s).ieReg = s.ieReg := by
  simp [firstLine]
@[simp] theorem firstLine_timer (s : State) : (firstLine s).timer = s.timer := by
  simp [firstLine]
@[simp] theorem firstLine_key1Armed (s : State) : (firstLine s).key1Armed = s.key1Armed := by
  simp [firstLine]
@[simp] theorem firstLine_serial (s : State) : (firstLine s).serial = s.serial := by
  simp [firstLine]
@[simp] theorem firstLine_joypad (s : State) : (firstLine s).joypad = s.joypad := by
  simp [firstLine]
@[simp] theorem firstLine_bus (s : State) : (firstLine s).bus = s.bus := by
  simp [firstLine]
@[simp] theorem firstLine_vram (s : State) : (firstLine s).vram = s.vram := by
  simp [firstLine]
@[simp] theorem firstLine_wram (s : State) : (firstLine s).wram = s.wram := by
  simp [firstLine]
@[simp] theorem firstLine_oam (s : State) : (firstLine s).oam = s.oam := by
  simp [firstLine]
@[simp] theorem firstLine_hram (s : State) : (firstLine s).hram = s.hram := by
  simp [firstLine]
@[simp] theorem firstLine_apu (s : State) : (firstLine s).apu = s.apu := by
  simp [firstLine]
@[simp] theorem firstLine_cart (s : State) : (firstLine s).cart = s.cart := by
  simp [firstLine]
@[simp] theorem firstLine_mbc (s : State) : (firstLine s).mbc = s.mbc := by
  simp [firstLine]
@[simp] theorem firstLine_cram (s : State) : (firstLine s).cram = s.cram := by
  simp [firstLine]
@[simp] theorem firstLine_rtc (s : State) : (firstLine s).rtc = s.rtc := by
  simp [firstLine]
@[simp] theorem firstLine_params (s : State) : (firstLine s).params = s.params := by
  simp [firstLine]
@[simp] theorem advanceLine_cpu (s : State) : (advanceLine s).cpu = s.cpu := by
  simp [advanceLine]
@[simp] theorem advanceLine_fault (s : State) : (advanceLine s).fault = s.fault := by
  simp [advanceLine]
@[simp] theorem advanceLine_clock (s : State) : (advanceLine s).clock = s.clock := by
  simp [advanceLine]
@[simp] theorem advanceLine_ieReg (s : State) : (advanceLine s).ieReg = s.ieReg := by
  simp [advanceLine]
@[simp] theorem advanceLine_timer (s : State) : (advanceLine s).timer = s.timer := by
  simp [advanceLine]
@[simp] theorem advanceLine_key1Armed (s : State) : (advanceLine s).key1Armed = s.key1Armed := by
  simp [advanceLine]
@[simp] theorem advanceLine_serial (s : State) : (advanceLine s).serial = s.serial := by
  simp [advanceLine]
@[simp] theorem advanceLine_joypad (s : State) : (advanceLine s).joypad = s.joypad := by
  simp [advanceLine]
@[simp] theorem advanceLine_bus (s : State) : (advanceLine s).bus = s.bus := by
  simp [advanceLine]
@[simp] theorem advanceLine_vram (s : State) : (advanceLine s).vram = s.vram := by
  simp [advanceLine]
@[simp] theorem advanceLine_wram (s : State) : (advanceLine s).wram = s.wram := by
  simp [advanceLine]
@[simp] theorem advanceLine_oam (s : State) : (advanceLine s).oam = s.oam := by
  simp [advanceLine]
@[simp] theorem advanceLine_hram (s : State) : (advanceLine s).hram = s.hram := by
  simp [advanceLine]
@[simp] theorem advanceLine_apu (s : State) : (advanceLine s).apu = s.apu := by
  simp [advanceLine]
@[simp] theorem advanceLine_cart (s : State) : (advanceLine s).cart = s.cart := by
  simp [advanceLine]
@[simp] theorem advanceLine_mbc (s : State) : (advanceLine s).mbc = s.mbc := by
  simp [advanceLine]
@[simp] theorem advanceLine_cram (s : State) : (advanceLine s).cram = s.cram := by
  simp [advanceLine]
@[simp] theorem advanceLine_rtc (s : State) : (advanceLine s).rtc = s.rtc := by
  simp [advanceLine]
@[simp] theorem advanceLine_params (s : State) : (advanceLine s).params = s.params := by
  simp [advanceLine]
@[simp] theorem startLine_cpu (s : State) : (startLine s).cpu = s.cpu := by
  unfold startLine; repeat' split
  all_goals simp
@[simp] theorem startLine_fault (s : State) : (startLine s).fault = s.fault := by
  unfold startLine; repeat' split
  all_goals simp
@[simp] theorem startLine_clock (s : State) : (startLine s).clock = s.clock := by
  unfold startLine; repeat' split
  all_goals simp
@[simp] theorem startLine_ieReg (s : State) : (startLine s).ieReg = s.ieReg := by
  unfold startLine; repeat' split
  all_goals simp
@[simp] theorem startLine_timer (s : State) : (startLine s).timer = s.timer := by
  unfold startLine; repeat' split
  all_goals simp
@[simp] theorem startLine_key1Armed (s : State) : (startLine s).key1Armed = s.key1Armed := by
  unfold startLine; repeat' split
  all_goals simp
@[simp] theorem startLine_serial (s : State) : (startLine s).serial = s.serial := by
  unfold startLine; repeat' split
  all_goals simp
@[simp] theorem startLine_joypad (s : State) : (startLine s).joypad = s.joypad := by
  unfold startLine; repeat' split
  all_goals simp
@[simp] theorem startLine_bus (s : State) : (startLine s).bus = s.bus := by
  unfold startLine; repeat' split
  all_goals simp
@[simp] theorem startLine_vram (s : State) : (startLine s).vram = s.vram := by
  unfold startLine; repeat' split
  all_goals simp
@[simp] theorem startLine_wram (s : State) : (startLine s).wram = s.wram := by
  unfold startLine; repeat' split
  all_goals simp
@[simp] theorem startLine_oam (s : State) : (startLine s).oam = s.oam := by
  unfold startLine; repeat' split
  all_goals simp
@[simp] theorem startLine_hram (s : State) : (startLine s).hram = s.hram := by
  unfold startLine; repeat' split
  all_goals simp
@[simp] theorem startLine_apu (s : State) : (startLine s).apu = s.apu := by
  unfold startLine; repeat' split
  all_goals simp
@[simp] theorem startLine_cart (s : State) : (startLine s).cart = s.cart := by
  unfold startLine; repeat' split
  all_goals simp
@[simp] theorem startLine_mbc (s : State) : (startLine s).mbc = s.mbc := by
  unfold startLine; repeat' split
  all_goals simp
@[simp] theorem startLine_cram (s : State) : (startLine s).cram = s.cram := by
  unfold startLine; repeat' split
  all_goals simp
@[simp] theorem startLine_rtc (s : State) : (startLine s).rtc = s.rtc := by
  unfold startLine; repeat' split
  all_goals simp
@[simp] theorem startLine_params (s : State) : (startLine s).params = s.params := by
  unfold startLine; repeat' split
  all_goals simp
@[simp] theorem nextLine_cpu (s : State) : (nextLine s).cpu = s.cpu := by
  unfold nextLine; split <;> simp
@[simp] theorem nextLine_fault (s : State) : (nextLine s).fault = s.fault := by
  unfold nextLine; split <;> simp
@[simp] theorem nextLine_clock (s : State) : (nextLine s).clock = s.clock := by
  unfold nextLine; split <;> simp
@[simp] theorem nextLine_ieReg (s : State) : (nextLine s).ieReg = s.ieReg := by
  unfold nextLine; split <;> simp
@[simp] theorem nextLine_timer (s : State) : (nextLine s).timer = s.timer := by
  unfold nextLine; split <;> simp
@[simp] theorem nextLine_key1Armed (s : State) : (nextLine s).key1Armed = s.key1Armed := by
  unfold nextLine; split <;> simp
@[simp] theorem nextLine_serial (s : State) : (nextLine s).serial = s.serial := by
  unfold nextLine; split <;> simp
@[simp] theorem nextLine_joypad (s : State) : (nextLine s).joypad = s.joypad := by
  unfold nextLine; split <;> simp
@[simp] theorem nextLine_bus (s : State) : (nextLine s).bus = s.bus := by
  unfold nextLine; split <;> simp
@[simp] theorem nextLine_vram (s : State) : (nextLine s).vram = s.vram := by
  unfold nextLine; split <;> simp
@[simp] theorem nextLine_wram (s : State) : (nextLine s).wram = s.wram := by
  unfold nextLine; split <;> simp
@[simp] theorem nextLine_oam (s : State) : (nextLine s).oam = s.oam := by
  unfold nextLine; split <;> simp
@[simp] theorem nextLine_hram (s : State) : (nextLine s).hram = s.hram := by
  unfold nextLine; split <;> simp
@[simp] theorem nextLine_apu (s : State) : (nextLine s).apu = s.apu := by
  unfold nextLine; split <;> simp
@[simp] theorem nextLine_cart (s : State) : (nextLine s).cart = s.cart := by
  unfold nextLine; split <;> simp
@[simp] theorem nextLine_mbc (s : State) : (nextLine s).mbc = s.mbc := by
  unfold nextLine; split <;> simp
@[simp] theorem nextLine_cram (s : State) : (nextLine s).cram = s.cram := by
  unfold nextLine; split <;> simp
@[simp] theorem nextLine_rtc (s : State) : (nextLine s).rtc = s.rtc := by
  unfold nextLine; split <;> simp
@[simp] theorem nextLine_params (s : State) : (nextLine s).params = s.params := by
  unfold nextLine; split <;> simp
@[simp] theorem lineEnd_cpu (s : State) : (lineEnd s).cpu = s.cpu := by
  unfold lineEnd; split <;> simp
@[simp] theorem lineEnd_fault (s : State) : (lineEnd s).fault = s.fault := by
  unfold lineEnd; split <;> simp
@[simp] theorem lineEnd_clock (s : State) : (lineEnd s).clock = s.clock := by
  unfold lineEnd; split <;> simp
@[simp] theorem lineEnd_ieReg (s : State) : (lineEnd s).ieReg = s.ieReg := by
  unfold lineEnd; split <;> simp
@[simp] theorem lineEnd_timer (s : State) : (lineEnd s).timer = s.timer := by
  unfold lineEnd; split <;> simp
@[simp] theorem lineEnd_key1Armed (s : State) : (lineEnd s).key1Armed = s.key1Armed := by
  unfold lineEnd; split <;> simp
@[simp] theorem lineEnd_serial (s : State) : (lineEnd s).serial = s.serial := by
  unfold lineEnd; split <;> simp
@[simp] theorem lineEnd_joypad (s : State) : (lineEnd s).joypad = s.joypad := by
  unfold lineEnd; split <;> simp
@[simp] theorem lineEnd_bus (s : State) : (lineEnd s).bus = s.bus := by
  unfold lineEnd; split <;> simp
@[simp] theorem lineEnd_vram (s : State) : (lineEnd s).vram = s.vram := by
  unfold lineEnd; split <;> simp
@[simp] theorem lineEnd_wram (s : State) : (lineEnd s).wram = s.wram := by
  unfold lineEnd; split <;> simp
@[simp] theorem lineEnd_oam (s : State) : (lineEnd s).oam = s.oam := by
  unfold lineEnd; split <;> simp
@[simp] theorem lineEnd_hram (s : State) : (lineEnd s).hram = s.hram := by
  unfold lineEnd; split <;> simp
@[simp] theorem lineEnd_apu (s : State) : (lineEnd s).apu = s.apu := by
  unfold lineEnd; split <;> simp
@[simp] theorem lineEnd_cart (s : State) : (lineEnd s).cart = s.cart := by
  unfold lineEnd; split <;> simp
@[simp] theorem lineEnd_mbc (s : State) : (lineEnd s).mbc = s.mbc := by
  unfold lineEnd; split <;> simp
@[simp] theorem lineEnd_cram (s : State) : (lineEnd s).cram = s.cram := by
  unfold lineEnd; split <;> simp
@[simp] theorem lineEnd_rtc (s : State) : (lineEnd s).rtc = s.rtc := by
  unfold lineEnd; split <;> simp
@[simp] theorem lineEnd_params (s : State) : (lineEnd s).params = s.params := by
  unfold lineEnd; split <;> simp
@[simp] theorem timerAdvance_cpu (n : Nat) (s : State) : (timerAdvance n s).cpu = s.cpu := by
  unfold timerAdvance; dsimp only; split <;> simp
@[simp] theorem timerAdvance_fault (n : Nat) (s : State) : (timerAdvance n s).fault = s.fault := by
  unfold timerAdvance; dsimp only; split <;> simp
@[simp] theorem timerAdvance_clock (n : Nat) (s : State) : (timerAdvance n s).clock = s.clock := by
  unfold timerAdvance; dsimp only; split <;> simp
@[simp] theorem timerAdvance_ieReg (n : Nat) (s : State) : (timerAdvance n s).ieReg = s.ieReg := by
  unfold timerAdvance; dsimp only; split <;> simp
@[simp] theorem timerAdvance_key1Armed (n : Nat) (s : State) : (timerAdvance n s).key1Armed = s.key1Armed := by
  unfold timerAdvance; dsimp only; split <;> simp
@[simp] theorem timerAdvance_serial (n : Nat) (s : State) : (timerAdvance n s).serial = s.serial := by
  unfold timerAdvance; dsimp only; split <;> simp
@[simp] theorem timerAdvance_joypad (n : Nat) (s : State) : (timerAdvance n s).joypad = s.joypad := by
  unfold timerAdvance; dsimp only; split <;> simp
@[simp] theorem timerAdvance_bus (n : Nat) (s : State) : (timerAdvance n s).bus = s.bus := by
  unfold timerAdvance; dsimp only; split <;> simp
@[simp] theorem timerAdvance_vram (n : Nat) (s : State) : (timerAdvance n s).vram = s.vram := by
  unfold timerAdvance; dsimp only; split <;> simp
@[simp] theorem timerAdvance_wram (n : Nat) (s : State) : (timerAdvance n s).wram = s.wram := by
  unfold timerAdvance; dsimp only; split <;> simp
@[simp] theorem timerAdvance_oam (n : Nat) (s : State) : (timerAdvance n s).oam = s.oam := by
  unfold timerAdvance; dsimp only; split <;> simp
@[simp] theorem timerAdvance_hram (n : Nat) (s : State) : (timerAdvance n s).hram = s.hram := by
  unfold timerAdvance; dsimp only; split <;> simp
@[simp] theorem timerAdvance_ppu (n : Nat) (s : State) : (timerAdvance n s).ppu = s.ppu := by
  unfold timerAdvance; dsimp only; split <;> simp
@[simp] theorem timerAdvance_apu (n : Nat) (s : State) : (timerAdvance n s).apu = s.apu := by
  unfold timerAdvance; dsimp only; split <;> simp
@[simp] theorem timerAdvance_cart (n : Nat) (s : State) : (timerAdvance n s).cart = s.cart := by
  unfold timerAdvance; dsimp only; split <;> simp
@[simp] theorem timerAdvance_mbc (n : Nat) (s : State) : (timerAdvance n s).mbc = s.mbc := by
  unfold timerAdvance; dsimp only; split <;> simp
@[simp] theorem timerAdvance_cram (n : Nat) (s : State) : (timerAdvance n s).cram = s.cram := by
  unfold timerAdvance; dsimp only; split <;> simp
@[simp] theorem timerAdvance_rtc (n : Nat) (s : State) : (timerAdvance n s).rtc = s.rtc := by
  unfold timerAdvance; dsimp only; split <;> simp
@[simp] theorem timerAdvance_params (n : Nat) (s : State) : (timerAdvance n s).params = s.params := by
  unfold timerAdvance; dsimp only; split <;> simp
@[simp] theorem serialAdvance_cpu (n : Nat) (s : State) : (serialAdvance n s).cpu = s.cpu := by
  unfold serialAdvance; dsimp only; repeat' split
  all_goals simp
@[simp] theorem serialAdvance_fault (n : Nat) (s : State) : (serialAdvance n s).fault = s.fault := by
  unfold serialAdvance; dsimp only; repeat' split
  all_goals simp
@[simp] theorem serialAdvance_clock (n : Nat) (s : State) : (serialAdvance n s).clock = s.clock := by
  unfold serialAdvance; dsimp only; repeat' split
  all_goals simp
@[simp] theorem serialAdvance_ieReg (n : Nat) (s : State) : (serialAdvance n s).ieReg = s.ieReg := by
  unfold serialAdvance; dsimp only; repeat' split
  all_goals simp
@[simp] theorem serialAdvance_timer (n : Nat) (s : State) : (serialAdvance n s).timer = s.timer := by
  unfold serialAdvance; dsimp only; repeat' split
  all_goals simp
@[simp] theorem serialAdvance_key1Armed (n : Nat) (s : State) : (serialAdvance n s).key1Armed = s.key1Armed := by
  unfold serialAdvance; dsimp only; repeat' split
  all_goals simp
@[simp] theorem serialAdvance_joypad (n : Nat) (s : State) : (serialAdvance n s).joypad = s.joypad := by
  unfold serialAdvance; dsimp only; repeat' split
  all_goals simp
@[simp] theorem serialAdvance_bus (n : Nat) (s : State) : (serialAdvance n s).bus = s.bus := by
  unfold serialAdvance; dsimp only; repeat' split
  all_goals simp
@[simp] theorem serialAdvance_vram (n : Nat) (s : State) : (serialAdvance n s).vram = s.vram := by
  unfold serialAdvance; dsimp only; repeat' split
  all_goals simp
@[simp] theorem serialAdvance_wram (n : Nat) (s : State) : (serialAdvance n s).wram = s.wram := by
  unfold serialAdvance; dsimp only; repeat' split
  all_goals simp
@[simp] theorem serialAdvance_oam (n : Nat) (s : State) : (serialAdvance n s).oam = s.oam := by
  unfold serialAdvance; dsimp only; repeat' split
  all_goals simp
@[simp] theorem serialAdvance_hram (n : Nat) (s : State) : (serialAdvance n s).hram = s.hram := by
  unfold serialAdvance; dsimp only; repeat' split
  all_goals simp
@[simp] theorem serialAdvance_ppu (n : Nat) (s : State) : (serialAdvance n s).ppu = s.ppu := by
  unfold serialAdvance; dsimp only; repeat' split
  all_goals simp
@[simp] theorem serialAdvance_apu (n : Nat) (s : State) : (serialAdvance n s).apu = s.apu := by
  unfold serialAdvance; dsimp only; repeat' split
  all_goals simp
@[simp] theorem serialAdvance_cart (n : Nat) (s : State) : (serialAdvance n s).cart = s.cart := by
  unfold serialAdvance; dsimp only; repeat' split
  all_goals simp
@[simp] theorem serialAdvance_mbc (n : Nat) (s : State) : (serialAdvance n s).mbc = s.mbc := by
  unfold serialAdvance; dsimp only; repeat' split
  all_goals simp
@[simp] theorem serialAdvance_cram (n : Nat) (s : State) : (serialAdvance n s).cram = s.cram := by
  unfold serialAdvance; dsimp only; repeat' split
  all_goals simp
@[simp] theorem serialAdvance_rtc (n : Nat) (s : State) : (serialAdvance n s).rtc = s.rtc := by
  unfold serialAdvance; dsimp only; repeat' split
  all_goals simp
@[simp] theorem serialAdvance_params (n : Nat) (s : State) : (serialAdvance n s).params = s.params := by
  unfold serialAdvance; dsimp only; repeat' split
  all_goals simp
theorem oamCopy_cpu {src : Word} {i n : Nat} {s t : State} (h : oamCopy src i n s = .ok t) : t.cpu = s.cpu := by
  induction n generalizing i s with
  | zero => cases h; rfl
  | succ n ih =>
    obtain ⟨b, -, h⟩ := bind_eq_ok.mp h
    have h1 := ih h
    exact h1
theorem oamCopy_fault {src : Word} {i n : Nat} {s t : State} (h : oamCopy src i n s = .ok t) : t.fault = s.fault := by
  induction n generalizing i s with
  | zero => cases h; rfl
  | succ n ih =>
    obtain ⟨b, -, h⟩ := bind_eq_ok.mp h
    have h1 := ih h
    exact h1
theorem oamCopy_clock {src : Word} {i n : Nat} {s t : State} (h : oamCopy src i n s = .ok t) : t.clock = s.clock := by
  induction n generalizing i s with
  | zero => cases h; rfl
  | succ n ih =>
    obtain ⟨b, -, h⟩ := bind_eq_ok.mp h
    have h1 := ih h
    exact h1
theorem oamCopy_ifReg {src : Word} {i n : Nat} {s t : State} (h : oamCopy src i n s = .ok t) : t.ifReg = s.ifReg := by
  induction n generalizing i s with
  | zero => cases h; rfl
  | succ n ih =>
    obtain ⟨b, -, h⟩ := bind_eq_ok.mp h
    have h1 := ih h
    exact h1
theorem oamCopy_ieReg {src : Word} {i n : Nat} {s t : State} (h : oamCopy src i n s = .ok t) : t.ieReg = s.ieReg := by
  induction n generalizing i s with
  | zero => cases h; rfl
  | succ n ih =>
    obtain ⟨b, -, h⟩ := bind_eq_ok.mp h
    have h1 := ih h
    exact h1
theorem oamCopy_timer {src : Word} {i n : Nat} {s t : State} (h : oamCopy src i n s = .ok t) : t.timer = s.timer := by
  induction n generalizing i s with
  | zero => cases h; rfl
  | succ n ih =>
    obtain ⟨b, -, h⟩ := bind_eq_ok.mp h
    have h1 := ih h
    exact h1
theorem oamCopy_key1Armed {src : Word} {i n : Nat} {s t : State} (h : oamCopy src i n s = .ok t) : t.key1Armed = s.key1Armed := by
  induction n generalizing i s with
  | zero => cases h; rfl
  | succ n ih =>
    obtain ⟨b, -, h⟩ := bind_eq_ok.mp h
    have h1 := ih h
    exact h1
theorem oamCopy_serial {src : Word} {i n : Nat} {s t : State} (h : oamCopy src i n s = .ok t) : t.serial = s.serial := by
  induction n generalizing i s with
  | zero => cases h; rfl
  | succ n ih =>
    obtain ⟨b, -, h⟩ := bind_eq_ok.mp h
    have h1 := ih h
    exact h1
theorem oamCopy_joypad {src : Word} {i n : Nat} {s t : State} (h : oamCopy src i n s = .ok t) : t.joypad = s.joypad := by
  induction n generalizing i s with
  | zero => cases h; rfl
  | succ n ih =>
    obtain ⟨b, -, h⟩ := bind_eq_ok.mp h
    have h1 := ih h
    exact h1
theorem oamCopy_bus {src : Word} {i n : Nat} {s t : State} (h : oamCopy src i n s = .ok t) : t.bus = s.bus := by
  induction n generalizing i s with
  | zero => cases h; rfl
  | succ n ih =>
    obtain ⟨b, -, h⟩ := bind_eq_ok.mp h
    have h1 := ih h
    exact h1
theorem oamCopy_vram {src : Word} {i n : Nat} {s t : State} (h : oamCopy src i n s = .ok t) : t.vram = s.vram := by
  induction n generalizing i s with
  | zero => cases h; rfl
  | succ n ih =>
    obtain ⟨b, -, h⟩ := bind_eq_ok.mp h
    have h1 := ih h
    exact h1
theorem oamCopy_wram {src : Word} {i n : Nat} {s t : State} (h : oamCopy src i n s = .ok t) : t.wram = s.wram := by
  induction n generalizing i s with
  | zero => cases h; rfl
  | succ n ih =>
    obtain ⟨b, -, h⟩ := bind_eq_ok.mp h
    have h1 := ih h
    exact h1
theorem oamCopy_hram {src : Word} {i n : Nat} {s t : State} (h : oamCopy src i n s = .ok t) : t.hram = s.hram := by
  induction n generalizing i s with
  | zero => cases h; rfl
  | succ n ih =>
    obtain ⟨b, -, h⟩ := bind_eq_ok.mp h
    have h1 := ih h
    exact h1
theorem oamCopy_ppu {src : Word} {i n : Nat} {s t : State} (h : oamCopy src i n s = .ok t) : t.ppu = s.ppu := by
  induction n generalizing i s with
  | zero => cases h; rfl
  | succ n ih =>
    obtain ⟨b, -, h⟩ := bind_eq_ok.mp h
    have h1 := ih h
    exact h1
theorem oamCopy_apu {src : Word} {i n : Nat} {s t : State} (h : oamCopy src i n s = .ok t) : t.apu = s.apu := by
  induction n generalizing i s with
  | zero => cases h; rfl
  | succ n ih =>
    obtain ⟨b, -, h⟩ := bind_eq_ok.mp h
    have h1 := ih h
    exact h1
theorem oamCopy_cart {src : Word} {i n : Nat} {s t : State} (h : oamCopy src i n s = .ok t) : t.cart = s.cart := by
  induction n generalizing i s with
  | zero => cases h; rfl
  | succ n ih =>
    obtain ⟨b, -, h⟩ := bind_eq_ok.mp h
    have h1 := ih h
    exact h1
theorem oamCopy_mbc {src : Word} {i n : Nat} {s t : State} (h : oamCopy src i n s = .ok t) : t.mbc = s.mbc := by
  induction n generalizing i s with
  | zero => cases h; rfl
  | succ n ih =>
    obtain ⟨b, -, h⟩ := bind_eq_ok.mp h
    have h1 := ih h
    exact h1
theorem oamCopy_cram {src : Word} {i n : Nat} {s t : State} (h : oamCopy src i n s = .ok t) : t.cram = s.cram := by
  induction n generalizing i s with
  | zero => cases h; rfl
  | succ n ih =>
    obtain ⟨b, -, h⟩ := bind_eq_ok.mp h
    have h1 := ih h
    exact h1
theorem oamCopy_rtc {src : Word} {i n : Nat} {s t : State} (h : oamCopy src i n s = .ok t) : t.rtc = s.rtc := by
  induction n generalizing i s with
  | zero => cases h; rfl
  | succ n ih =>
    obtain ⟨b, -, h⟩ := bind_eq_ok.mp h
    have h1 := ih h
    exact h1
theorem oamCopy_params {src : Word} {i n : Nat} {s t : State} (h : oamCopy src i n s = .ok t) : t.params = s.params := by
  induction n generalizing i s with
  | zero => cases h; rfl
  | succ n ih =>
    obtain ⟨b, -, h⟩ := bind_eq_ok.mp h
    have h1 := ih h
    exact h1
theorem writeDma_cpu {v : Byte} {s t : State} (h : writeDma v s = .ok t) : t.cpu = s.cpu := by
  unfold writeDma at h; split at h
  · have h1 := oamCopy_cpu h
    exact h1
  · cases h; rfl
theorem writeDma_fault {v : Byte} {s t : State} (h : writeDma v s = .ok t) : t.fault = s.fault := by
  unfold writeDma at h; split at h
  · have h1 := oamCopy_fault h
    exact h1
  · cases h; rfl
theorem writeDma_clock {v : Byte} {s t : State} (h : writeDma v s = .ok t) : t.clock = s.clock := by
  unfold writeDma at h; split at h
  · have h1 := oamCopy_clock h
    exact h1
  · cases h; rfl
theorem writeDma_ifReg {v : Byte} {s t : State} (h : writeDma v s = .ok t) : t.ifReg = s.ifReg := by
  unfold writeDma at h; split at h
  · have h1 := oamCopy_ifReg h
    exact h1
  · cases h; rfl
theorem writeDma_ieReg {v : Byte} {s t : State} (h : writeDma v s = .ok t) : t.ieReg = s.ieReg := by
  unfold writeDma at h; split at h
  · have h1 := oamCopy_ieReg h
    exact h1
  · cases h; rfl
theorem writeDma_timer {v : Byte} {s t : State} (h : writeDma v s = .ok t) : t.timer = s.timer := by
  unfold writeDma at h; split at h
  · have h1 := oamCopy_timer h
    exact h1
  · cases h; rfl
theorem writeDma_key1Armed {v : Byte} {s t : State} (h : writeDma v s = .ok t) : t.key1Armed = s.key1Armed := by
  unfold writeDma at h; split at h
  · have h1 := oamCopy_key1Armed h
    exact h1
  · cases h; rfl
theorem writeDma_serial {v : Byte} {s t : State} (h : writeDma v s = .ok t) : t.serial = s.serial := by
  unfold writeDma at h; split at h
  · have h1 := oamCopy_serial h
    exact h1
  · cases h; rfl
theorem writeDma_joypad {v : Byte} {s t : State} (h : writeDma v s = .ok t) : t.joypad = s.joypad := by
  unfold writeDma at h; split at h
  · have h1 := oamCopy_joypad h
    exact h1
  · cases h; rfl
theorem writeDma_vram {v : Byte} {s t : State} (h : writeDma v s = .ok t) : t.vram = s.vram := by
  unfold writeDma at h; split at h
  · have h1 := oamCopy_vram h
    exact h1
  · cases h; rfl
theorem writeDma_wram {v : Byte} {s t : State} (h : writeDma v s = .ok t) : t.wram = s.wram := by
  unfold writeDma at h; split at h
  · have h1 := oamCopy_wram h
    exact h1
  · cases h; rfl
theorem writeDma_hram {v : Byte} {s t : State} (h : writeDma v s = .ok t) : t.hram = s.hram := by
  unfold writeDma at h; split at h
  · have h1 := oamCopy_hram h
    exact h1
  · cases h; rfl
theorem writeDma_ppu {v : Byte} {s t : State} (h : writeDma v s = .ok t) : t.ppu = s.ppu := by
  unfold writeDma at h; split at h
  · have h1 := oamCopy_ppu h
    exact h1
  · cases h; rfl
theorem writeDma_apu {v : Byte} {s t : State} (h : writeDma v s = .ok t) : t.apu = s.apu := by
  unfold writeDma at h; split at h
  · have h1 := oamCopy_apu h
    exact h1
  · cases h; rfl
theorem writeDma_cart {v : Byte} {s t : State} (h : writeDma v s = .ok t) : t.cart = s.cart := by
  unfold writeDma at h; split at h
  · have h1 := oamCopy_cart h
    exact h1
  · cases h; rfl
theorem writeDma_mbc {v : Byte} {s t : State} (h : writeDma v s = .ok t) : t.mbc = s.mbc := by
  unfold writeDma at h; split at h
  · have h1 := oamCopy_mbc h
    exact h1
  · cases h; rfl
theorem writeDma_cram {v : Byte} {s t : State} (h : writeDma v s = .ok t) : t.cram = s.cram := by
  unfold writeDma at h; split at h
  · have h1 := oamCopy_cram h
    exact h1
  · cases h; rfl
theorem writeDma_rtc {v : Byte} {s t : State} (h : writeDma v s = .ok t) : t.rtc = s.rtc := by
  unfold writeDma at h; split at h
  · have h1 := oamCopy_rtc h
    exact h1
  · cases h; rfl
theorem writeDma_params {v : Byte} {s t : State} (h : writeDma v s = .ok t) : t.params = s.params := by
  unfold writeDma at h; split at h
  · have h1 := oamCopy_params h
    exact h1
  · cases h; rfl
theorem hdmaCopy_cpu {n : Nat} {s t : State} (h : hdmaCopy n s = .ok t) : t.cpu = s.cpu := by
  induction n generalizing s with
  | zero => cases h; rfl
  | succ n ih =>
    obtain ⟨b, -, h⟩ := bind_eq_ok.mp h
    have h1 := ih h
    exact h1
theorem hdmaCopy_fault {n : Nat} {s t : State} (h : hdmaCopy n s = .ok t) : t.fault = s.fault := by
  induction n generalizing s with
  | zero => cases h; rfl
  | succ n ih =>
    obtain ⟨b, -, h⟩ := bind_eq_ok.mp h
    have h1 := ih h
    exact h1
theorem hdmaCopy_clock {n : Nat} {s t : State} (h : hdmaCopy n s = .ok t) : t.clock = s.clock := by
  induction n generalizing s with
  | zero => cases h; rfl
  | succ n ih =>
    obtain ⟨b, -, h⟩ := bind_eq_ok.mp h
    have h1 := ih h
    exact h1
theorem hdmaCopy_ifReg {n : Nat} {s t : State} (h : hdmaCopy n s = .ok t) : t.ifReg = s.ifReg := by
  induction n generalizing s with
  | zero => cases h; rfl
  | succ n ih =>
    obtain ⟨b, -, h⟩ := bind_eq_ok.mp h
    have h1 := ih h
    exact h1
theorem hdmaCopy_ieReg {n : Nat} {s t : State} (h : hdmaCopy n s = .ok t) : t.ieReg = s.ieReg := by
  induction n generalizing s with
  | zero => cases h; rfl
  | succ n ih =>
    obtain ⟨b, -, h⟩ := bind_eq_ok.mp h
    have h1 := ih h
    exact h1
theorem hdmaCopy_timer {n : Nat} {s t : State} (h : hdmaCopy n s = .ok t) : t.timer = s.timer := by
  induction n generalizing s with
  | zero => cases h; rfl
  | succ n ih =>
    obtain ⟨b, -, h⟩ := bind_eq_ok.mp h
    have h1 := ih h
    exact h1
theorem hdmaCopy_key1Armed {n : Nat} {s t : State} (h : hdmaCopy n s = .ok t) : t.key1Armed = s.key1Armed := by
  induction n generalizing s with
  | zero => cases h; rfl
  | succ n ih =>
    obtain ⟨b, -, h⟩ := bind_eq_ok.mp h
    have h1 := ih h
    exact h1
theorem hdmaCopy_serial {n : Nat} {s t : State} (h : hdmaCopy n s = .ok t) : t.serial = s.serial := by
  induction n generalizing s with
  | zero => cases h; rfl
  | succ n ih =>
    obtain ⟨b, -, h⟩ := bind_eq_ok.mp h
    have h1 := ih h
    exact h1
theorem hdmaCopy_joypad {n : Nat} {s t : State} (h : hdmaCopy n s = .ok t) : t.joypad = s.joypad := by
  induction n generalizing s with
  | zero => cases h; rfl
  | succ n ih =>
    obtain ⟨b, -, h⟩ := bind_eq_ok.mp h
    have h1 := ih h
    exact h1
theorem hdmaCopy_wram {n : Nat} {s t : State} (h : hdmaCopy n s = .ok t) : t.wram = s.wram := by
  induction n generalizing s with
  | zero => cases h; rfl
  | succ n ih =>
    obtain ⟨b, -, h⟩ := bind_eq_ok.mp h
    have h1 := ih h
    exact h1
theorem hdmaCopy_oam {n : Nat} {s t : State} (h : hdmaCopy n s = .ok t) : t.oam = s.oam := by
  induction n generalizing s with
  | zero => cases h; rfl
  | succ n ih =>
    obtain ⟨b, -, h⟩ := bind_eq_ok.mp h
    have h1 := ih h
    exact h1
theorem hdmaCopy_hram {n : Nat} {s t : State} (h : hdmaCopy n s = .ok t) : t.hram = s.hram := by
  induction n generalizing s with
  | zero => cases h; rfl
  | succ n ih =>
    obtain ⟨b, -, h⟩ := bind_eq_ok.mp h
    have h1 := ih h
    exact h1
theorem hdmaCopy_ppu {n : Nat} {s t : State} (h : hdmaCopy n s = .ok t) : t.ppu = s.ppu := by
  induction n generalizing s with
  | zero => cases h; rfl
  | succ n ih =>
    obtain ⟨b, -, h⟩ := bind_eq_ok.mp h
    have h1 := ih h
    exact h1
theorem hdmaCopy_apu {n : Nat} {s t : State} (h : hdmaCopy n s = .ok t) : t.apu = s.apu := by
  induction n generalizing s with
  | zero => cases h; rfl
  | succ n ih =>
    obtain ⟨b, -, h⟩ := bind_eq_ok.mp h
    have h1 := ih h
    exact h1
theorem hdmaCopy_cart {n : Nat} {s t : State} (h : hdmaCopy n s = .ok t) : t.cart = s.cart := by
  induction n generalizing s with
  | zero => cases h; rfl
  | succ n ih =>
    obtain ⟨b, -, h⟩ := bind_eq_ok.mp h
    have h1 := ih h
    exact h1
theorem hdmaCopy_mbc {n : Nat} {s t : State} (h : hdmaCopy n s = .ok t) : t.mbc = s.mbc := by
  induction n generalizing s with
  | zero => cases h; rfl
  | succ n ih =>
    obtain ⟨b, -, h⟩ := bind_eq_ok.mp h
    have h1 := ih h
    exact h1
theorem hdmaCopy_cram {n : Nat} {s t : State} (h : hdmaCopy n s = .ok t) : t.cram = s.cram := by
  induction n generalizing s with
  | zero => cases h; rfl
  | succ n ih =>
    obtain ⟨b, -, h⟩ := bind_eq_ok.mp h
    have h1 := ih h
    exact h1
theorem hdmaCopy_rtc {n : Nat} {s t : State} (h : hdmaCopy n s = .ok t) : t.rtc = s.rtc := by
  induction n generalizing s with
  | zero => cases h; rfl
  | succ n ih =>
    obtain ⟨b, -, h⟩ := bind_eq_ok.mp h
    have h1 := ih h
    exact h1
theorem hdmaCopy_params {n : Nat} {s t : State} (h : hdmaCopy n s = .ok t) : t.params = s.params := by
  induction n generalizing s with
  | zero => cases h; rfl
  | succ n ih =>
    obtain ⟨b, -, h⟩ := bind_eq_ok.mp h
    have h1 := ih h
    exact h1
theorem hdmaBlock_cpu {s t : State} (h : hdmaBlock s = .ok t) : t.cpu = s.cpu := by
  obtain ⟨s1, h1, h⟩ := bind_eq_ok.mp h
  have := hdmaCopy_cpu h1
  cases h; split <;> exact this
theorem hdmaBlock_fault {s t : State} (h : hdmaBlock s = .ok t) : t.fault = s.fault := by
  obtain ⟨s1, h1, h⟩ := bind_eq_ok.mp h
  have := hdmaCopy_fault h1
  cases h; split <;> exact this
theorem hdmaBlock_clock {s t : State} (h : hdmaBlock s = .ok t) : t.clock = s.clock := by
  obtain ⟨s1, h1, h⟩ := bind_eq_ok.mp h
  have := hdmaCopy_clock h1
  cases h; split <;> exact this
theorem hdmaBlock_ifReg {s t : State} (h : hdmaBlock s = .ok t) : t.ifReg = s.ifReg := by
  obtain ⟨s1, h1, h⟩ := bind_eq_ok.mp h
  have := hdmaCopy_ifReg h1
  cases h; split <;> exact this
theorem hdmaBlock_ieReg {s t : State} (h : hdmaBlock s = .ok t) : t.ieReg = s.ieReg := by
  obtain ⟨s1, h1, h⟩ := bind_eq_ok.mp h
  have := hdmaCopy_ieReg h1
  cases h; split <;> exact this
theorem hdmaBlock_timer {s t : State} (h : hdmaBlock s = .ok t) : t.timer = s.timer := by
  obtain ⟨s1, h1, h⟩ := bind_eq_ok.mp h
  have := hdmaCopy_timer h1
  cases h; split <;> exact this
theorem hdmaBlock_key1Armed {s t : State} (h : hdmaBlock s = .ok t) : t.key1Armed = s.key1Armed := by
  obtain ⟨s1, h1, h⟩ := bind_eq_ok.mp h
  have := hdmaCopy_key1Armed h1
  cases h; split <;> exact this
theorem hdmaBlock_serial {s t : State} (h : hdmaBlock s = .ok t) : t.serial = s.serial := by
  obtain ⟨s1, h1, h⟩ := bind_eq_ok.mp h
  have := hdmaCopy_serial h1
  cases h; split <;> exact this
theorem hdmaBlock_joypad {s t : State} (h : hdmaBlock s = .ok t) : t.joypad = s.joypad := by
  obtain ⟨s1, h1, h⟩ := bind_eq_ok.mp h
  have := hdmaCopy_joypad h1
  cases h; split <;> exact this
theorem hdmaBlock_wram {s t : State} (h : hdmaBlock s = .ok t) : t.wram = s.wram := by
  obtain ⟨s1, h1, h⟩ := bind_eq_ok.mp h
  have := hdmaCopy_wram h1
  cases h; split <;> exact this
theorem hdmaBlock_oam {s t : State} (h : hdmaBlock s = .ok t) : t.oam = s.oam := by
  obtain ⟨s1, h1, h⟩ := bind_eq_ok.mp h
  have := hdmaCopy_oam h1
  cases h; split <;> exact this
theorem hdmaBlock_hram {s t : State} (h : hdmaBlock s = .ok t) : t.hram = s.hram := by
  obtain ⟨s1, h1, h⟩ := bind_eq_ok.mp h
  have := hdmaCopy_hram h1
  cases h; split <;> exact this
theorem hdmaBlock_ppu {s t : State} (h : hdmaBlock s = .ok t) : t.ppu = s.ppu := by
  obtain ⟨s1, h1, h⟩ := bind_eq_ok.mp h
  have := hdmaCopy_ppu h1
  cases h; split <;> exact this
theorem hdmaBlock_apu {s t : State} (h : hdmaBlock s = .ok t) : t.apu = s.apu := by
  obtain ⟨s1, h1, h⟩ := bind_eq_ok.mp h
  have := hdmaCopy_apu h1
  cases h; split <;> exact this
theorem hdmaBlock_cart {s t : State} (h : hdmaBlock s = .ok t) : t.cart = s.cart := by
  obtain ⟨s1, h1, h⟩ := bind_eq_ok.mp h
  have := hdmaCopy_cart h1
  cases h; split <;> exact this
theorem hdmaBlock_mbc {s t : State} (h : hdmaBlock s = .ok t) : t.mbc = s.mbc := by
  obtain ⟨s1, h1, h⟩ := bind_eq_ok.mp h
  have := hdmaCopy_mbc h1
  cases h; split <;> exact this
theorem hdmaBlock_cram {s t : State} (h : hdmaBlock s = .ok t) : t.cram = s.cram := by
  obtain ⟨s1, h1, h⟩ := bind_eq_ok.mp h
  have := hdmaCopy_cram h1
  cases h; split <;> exact this
theorem hdmaBlock_rtc {s t : State} (h : hdmaBlock s = .ok t) : t.rtc = s.rtc := by
  obtain ⟨s1, h1, h⟩ := bind_eq_ok.mp h
  have := hdmaCopy_rtc h1
  cases h; split <;> exact this
theorem hdmaBlock_params {s t : State} (h : hdmaBlock s = .ok t) : t.params = s.params := by
  obtain ⟨s1, h1, h⟩ := bind_eq_ok.mp h
  have := hdmaCopy_params h1
  cases h; split <;> exact this
theorem writeHdma5_cpu {v : Byte} {s t : State} (h : writeHdma5 v s = .ok t) : t.cpu = s.cpu := by
  unfold writeHdma5 at h; split at h
  · obtain ⟨s1, h1, h⟩ := bind_eq_ok.mp h
    have := hdmaCopy_cpu h1
    cases h; simpa using this
  all_goals cases h; rfl
theorem writeHdma5_fault {v : Byte} {s t : State} (h : writeHdma5 v s = .ok t) : t.fault = s.fault := by
  unfold writeHdma5 at h; split at h
  · obtain ⟨s1, h1, h⟩ := bind_eq_ok.mp h
    have := hdmaCopy_fault h1
    cases h; simpa using this
  all_goals cases h; rfl
theorem writeHdma5_clock {v : Byte} {s t : State} (h : writeHdma5 v s = .ok t) : t.clock = s.clock := by
  unfold writeHdma5 at h; split at h
  · obtain ⟨s1, h1, h⟩ := bind_eq_ok.mp h
    have := hdmaCopy_clock h1
    cases h; simpa using this
  all_goals cases h; rfl
theorem writeHdma5_ifReg {v : Byte} {s t : State} (h : writeHdma5 v s = .ok t) : t.ifReg = s.ifReg := by
  unfold writeHdma5 at h; split at h
  · obtain ⟨s1, h1, h⟩ := bind_eq_ok.mp h
    have := hdmaCopy_ifReg h1
    cases h; simpa using this
  all_goals cases h; rfl
theorem writeHdma5_ieReg {v : Byte} {s t : State} (h : writeHdma5 v s = .ok t) : t.ieReg = s.ieReg := by
  unfold writeHdma5 at h; split at h
  · obtain ⟨s1, h1, h⟩ := bind_eq_ok.mp h
    have := hdmaCopy_ieReg h1
    cases h; simpa using this
  all_goals cases h; rfl
theorem writeHdma5_timer {v : Byte} {s t : State} (h : writeHdma5 v s = .ok t) : t.timer = s.timer := by
  unfold writeHdma5 at h; split at h
  · obtain ⟨s1, h1, h⟩ := bind_eq_ok.mp h
    have := hdmaCopy_timer h1
    cases h; simpa using this
  all_goals cases h; rfl
theorem writeHdma5_key1Armed {v : Byte} {s t : State} (h : writeHdma5 v s = .ok t) : t.key1Armed = s.key1Armed := by
  unfold writeHdma5 at h; split at h
  · obtain ⟨s1, h1, h⟩ := bind_eq_ok.mp h
    have := hdmaCopy_key1Armed h1
    cases h; simpa using this
  all_goals cases h; rfl
theorem writeHdma5_serial {v : Byte} {s t : State} (h : writeHdma5 v s = .ok t) : t.serial = s.serial := by
  unfold writeHdma5 at h; split at h
  · obtain ⟨s1, h1, h⟩ := bind_eq_ok.mp h
    have := hdmaCopy_serial h1
    cases h; simpa using this
  all_goals cases h; rfl
theorem writeHdma5_joypad {v : Byte} {s t : State} (h : writeHdma5 v s = .ok t) : t.joypad = s.joypad := by
  unfold writeHdma5 at h; split at h
  · obtain ⟨s1, h1, h⟩ := bind_eq_ok.mp h
    have := hdmaCopy_joypad h1
    cases h; simpa using this
  all_goals cases h; rfl
theorem writeHdma5_wram {v : Byte} {s t : State} (h : writeHdma5 v s = .ok t) : t.wram = s.wram := by
  unfold writeHdma5 at h; split at h
  · obtain ⟨s1, h1, h⟩ := bind_eq_ok.mp h
    have := hdmaCopy_wram h1
    cases h; simpa using this
  all_goals cases h; rfl
theorem writeHdma5_oam {v : Byte} {s t : State} (h : writeHdma5 v s = .ok t) : t.oam = s.oam := by
  unfold writeHdma5 at h; split at h
  · obtain ⟨s1, h1, h⟩ := bind_eq_ok.mp h
    have := hdmaCopy_oam h1
    cases h; simpa using this
  all_goals cases h; rfl
theorem writeHdma5_hram {v : Byte} {s t : State} (h : writeHdma5 v s = .ok t) : t.hram = s.hram := by
  unfold writeHdma5 at h; split at h
  · obtain ⟨s1, h1, h⟩ := bind_eq_ok.mp h
    have := hdmaCopy_hram h1
    cases h; simpa using this
  all_goals cases h; rfl
theorem writeHdma5_apu {v : Byte} {s t : State} (h : writeHdma5 v s = .ok t) : t.apu = s.apu := by
  unfold writeHdma5 at h; split at h
  · obtain ⟨s1, h1, h⟩ := bind_eq_ok.mp h
    have := hdmaCopy_apu h1
    cases h; simpa using this
  all_goals cases h; rfl
theorem writeHdma5_cart {v : Byte} {s t : State} (h : writeHdma5 v s = .ok t) : t.cart = s.cart := by
  unfold writeHdma5 at h; split at h
  · obtain ⟨s1, h1, h⟩ := bind_eq_ok.mp h
    have := hdmaCopy_cart h1
    cases h; simpa using this
  all_goals cases h; rfl
theorem writeHdma5_mbc {v : Byte} {s t : State} (h : writeHdma5 v s = .ok t) : t.mbc = s.mbc := by
  unfold writeHdma5 at h; split at h
  · obtain ⟨s1, h1, h⟩ := bind_eq_ok.mp h
    have := hdmaCopy_mbc h1
    cases h; simpa using this
  all_goals cases h; rfl
theorem writeHdma5_cram {v : Byte} {s t : State} (h : writeHdma5 v s = .ok t) : t.cram = s.cram := by
  unfold writeHdma5 at h; split at h
  · obtain ⟨s1, h1, h⟩ := bind_eq_ok.mp h
    have := hdmaCopy_cram h1
    cases h; simpa using this
  all_goals cases h; rfl
theorem writeHdma5_rtc {v : Byte} {s t : State} (h : writeHdma5 v s = .ok t) : t.rtc = s.rtc := by
  unfold writeHdma5 at h; split at h
  · obtain ⟨s1, h1, h⟩ := bind_eq_ok.mp h
    have := hdmaCopy_rtc h1
    cases h; simpa using this
  all_goals cases h; rfl
theorem writeHdma5_params {v : Byte} {s t : State} (h : writeHdma5 v s = .ok t) : t.params = s.params := by
  unfold writeHdma5 at h; split at h
  · obtain ⟨s1, h1, h⟩ := bind_eq_ok.mp h
    have := hdmaCopy_params h1
    cases h; simpa using this
  all_goals cases h; rfl
theorem writeIo_cpu {r : IoReg} {v : Byte} {s t : State} (h : writeIo r v s = .ok t) : t.cpu = s.cpu := by
  unfold writeIo at h; split at h
  · exact writeDma_cpu h
  · split at h
    · exact writeHdma5_cpu h
    · cases h; simp
theorem writeIo_fault {r : IoReg} {v : Byte} {s t : State} (h : writeIo r v s = .ok t) : t.fault = s.fault := by
  unfold writeIo at h; split at h
  · exact writeDma_fault h
  · split at h
    · exact writeHdma5_fault h
    · cases h; simp
theorem writeIo_clock {r : IoReg} {v : Byte} {s t : State} (h : writeIo r v s = .ok t) : t.clock = s.clock := by
  unfold writeIo at h; split at h
  · exact writeDma_clock h
  · split at h
    · exact writeHdma5_clock h
    · cases h; simp
theorem writeIo_ieReg {r : IoReg} {v : Byte} {s t : State} (h : writeIo r v s = .ok t) : t.ieReg = s.ieReg := by
  unfold writeIo at h; split at h
  · exact writeDma_ieReg h
  · split at h
    · exact writeHdma5_ieReg h
    · cases h; simp
theorem writeIo_wram {r : IoReg} {v : Byte} {s t : State} (h : writeIo r v s = .ok t) : t.wram = s.wram := by
  unfold writeIo at h; split at h
  · exact writeDma_wram h
  · split at h
    · exact writeHdma5_wram h
    · cases h; simp
theorem writeIo_hram {r : IoReg} {v : Byte} {s t : State} (h : writeIo r v s = .ok t) : t.hram = s.hram := by
  unfold writeIo at h; split at h
  · exact writeDma_hram h
  · split at h
    · exact writeHdma5_hram h
    · cases h; simp
theorem writeIo_cart {r : IoReg} {v : Byte} {s t : State} (h : writeIo r v s = .ok t) : t.cart = s.cart := by
  unfold writeIo at h; split at h
  · exact writeDma_cart h
  · split at h
    · exact writeHdma5_cart h
    · cases h; simp
theorem writeIo_mbc {r : IoReg} {v : Byte} {s t : State} (h : writeIo r v s = .ok t) : t.mbc = s.mbc := by
  unfold writeIo at h; split at h
  · exact writeDma_mbc h
  · split at h
    · exact writeHdma5_mbc h
    · cases h; simp
theorem writeIo_cram {r : IoReg} {v : Byte} {s t : State} (h : writeIo r v s = .ok t) : t.cram = s.cram := by
  unfold writeIo at h; split at h
  · exact writeDma_cram h
  · split at h
    · exact writeHdma5_cram h
    · cases h; simp
theorem writeIo_rtc {r : IoReg} {v : Byte} {s t : State} (h : writeIo r v s = .ok t) : t.rtc = s.rtc := by
  unfold writeIo at h; split at h
  · exact writeDma_rtc h
  · split at h
    · exact writeHdma5_rtc h
    · cases h; simp
theorem writeIo_params {r : IoReg} {v : Byte} {s t : State} (h : writeIo r v s = .ok t) : t.params = s.params := by
  unfold writeIo at h; split at h
  · exact writeDma_params h
  · split at h
    · exact writeHdma5_params h
    · cases h; simp
theorem writeUnmapped_cpu {a : Word} {s t : State} (h : writeUnmapped s a = .ok t) : t.cpu = s.cpu := by
  unfold writeUnmapped at h; split at h <;> cases h; rfl
theorem writeUnmapped_fault {a : Word} {s t : State} (h : writeUnmapped s a = .ok t) : t.fault = s.fault := by
  unfold writeUnmapped at h; split at h <;> cases h; rfl
theorem writeUnmapped_clock {a : Word} {s t : State} (h : writeUnmapped s a = .ok t) : t.clock = s.clock := by
  unfold writeUnmapped at h; split at h <;> cases h; rfl
theorem writeUnmapped_ifReg {a : Word} {s t : State} (h : writeUnmapped s a = .ok t) : t.ifReg = s.ifReg := by
  unfold writeUnmapped at h; split at h <;> cases h; rfl
theorem writeUnmapped_ieReg {a : Word} {s t : State} (h : writeUnmapped s a = .ok t) : t.ieReg = s.ieReg := by
  unfold writeUnmapped at h; split at h <;> cases h; rfl
theorem writeUnmapped_timer {a : Word} {s t : State} (h : writeUnmapped s a = .ok t) : t.timer = s.timer := by
  unfold writeUnmapped at h; split at h <;> cases h; rfl
theorem writeUnmapped_key1Armed {a : Word} {s t : State} (h : writeUnmapped s a = .ok t) : t.key1Armed = s.key1Armed := by
  unfold writeUnmapped at h; split at h <;> cases h; rfl
theorem writeUnmapped_serial {a : Word} {s t : State} (h : writeUnmapped s a = .ok t) : t.serial = s.serial := by
  unfold writeUnmapped at h; split at h <;> cases h; rfl
theorem writeUnmapped_joypad {a : Word} {s t : State} (h : writeUnmapped s a = .ok t) : t.joypad = s.joypad := by
  unfold writeUnmapped at h; split at h <;> cases h; rfl
theorem writeUnmapped_bus {a : Word} {s t : State} (h : writeUnmapped s a = .ok t) : t.bus = s.bus := by
  unfold writeUnmapped at h; split at h <;> cases h; rfl
theorem writeUnmapped_vram {a : Word} {s t : State} (h : writeUnmapped s a = .ok t) : t.vram = s.vram := by
  unfold writeUnmapped at h; split at h <;> cases h; rfl
theorem writeUnmapped_wram {a : Word} {s t : State} (h : writeUnmapped s a = .ok t) : t.wram = s.wram := by
  unfold writeUnmapped at h; split at h <;> cases h; rfl
theorem writeUnmapped_oam {a : Word} {s t : State} (h : writeUnmapped s a = .ok t) : t.oam = s.oam := by
  unfold writeUnmapped at h; split at h <;> cases h; rfl
theorem writeUnmapped_hram {a : Word} {s t : State} (h : writeUnmapped s a = .ok t) : t.hram = s.hram := by
  unfold writeUnmapped at h; split at h <;> cases h; rfl
theorem writeUnmapped_ppu {a : Word} {s t : State} (h : writeUnmapped s a = .ok t) : t.ppu = s.ppu := by
  unfold writeUnmapped at h; split at h <;> cases h; rfl
theorem writeUnmapped_apu {a : Word} {s t : State} (h : writeUnmapped s a = .ok t) : t.apu = s.apu := by
  unfold writeUnmapped at h; split at h <;> cases h; rfl
theorem writeUnmapped_cart {a : Word} {s t : State} (h : writeUnmapped s a = .ok t) : t.cart = s.cart := by
  unfold writeUnmapped at h; split at h <;> cases h; rfl
theorem writeUnmapped_mbc {a : Word} {s t : State} (h : writeUnmapped s a = .ok t) : t.mbc = s.mbc := by
  unfold writeUnmapped at h; split at h <;> cases h; rfl
theorem writeUnmapped_cram {a : Word} {s t : State} (h : writeUnmapped s a = .ok t) : t.cram = s.cram := by
  unfold writeUnmapped at h; split at h <;> cases h; rfl
theorem writeUnmapped_rtc {a : Word} {s t : State} (h : writeUnmapped s a = .ok t) : t.rtc = s.rtc := by
  unfold writeUnmapped at h; split at h <;> cases h; rfl
theorem writeUnmapped_params {a : Word} {s t : State} (h : writeUnmapped s a = .ok t) : t.params = s.params := by
  unfold writeUnmapped at h; split at h <;> cases h; rfl
theorem writeByte_cpu {a : Word} {v : Byte} {s t : State} (h : writeByte s a v = .ok t) : t.cpu = s.cpu := by
  unfold writeByte at h
  split at h
  all_goals first | (cases h; simp) | (cases h; split <;> rfl) | exact writeUnmapped_cpu h | skip
  split at h
  · exact writeIo_cpu h
  · exact writeUnmapped_cpu h
theorem writeByte_fault {a : Word} {v : Byte} {s t : State} (h : writeByte s a v = .ok t) : t.fault = s.fault := by
  unfold writeByte at h
  split at h
  all_goals first | (cases h; simp) | (cases h; split <;> rfl) | exact writeUnmapped_fault h | skip
  split at h
  · exact writeIo_fault h
  · exact writeUnmapped_fault h
theorem writeByte_clock {a : Word} {v : Byte} {s t : State} (h : writeByte s a v = .ok t) : t.clock = s.clock := by
  unfold writeByte at h
  split at h
  all_goals first | (cases h; simp) | (cases h; split <;> rfl) | exact writeUnmapped_clock h | skip
  split at h
  · exact writeIo_clock h
  · exact writeUnmapped_clock h
theorem writeByte_cart {a : Word} {v : Byte} {s t : State} (h : writeByte s a v = .ok t) : t.cart = s.cart := by
  unfold writeByte at h
  split at h
  all_goals first | (cases h; simp) | (cases h; split <;> rfl) | exact writeUnmapped_cart h | skip
  split at h
  · exact writeIo_cart h
  · exact writeUnmapped_cart h
theorem writeByte_params {a : Word} {v : Byte} {s t : State} (h : writeByte s a v = .ok t) : t.params = s.params := by
  unfold writeByte at h
  split at h
  all_goals first | (cases h; simp) | (cases h; split <;> rfl) | exact writeUnmapped_params h | skip
  split at h
  · exact writeIo_params h
  · exact writeUnmapped_params h
@[simp] theorem lineDone_cpu (s : State) : (lineDone s).cpu = s.cpu := by
  simp [lineDone]
@[simp] theorem lineDone_fault (s : State) : (lineDone s).fault = s.fault := by
  simp [lineDone]
@[simp] theorem lineDone_clock (s : State) : (lineDone s).clock = s.clock := by
  simp [lineDone]
@[simp] theorem lineDone_ifReg (s : State) : (lineDone s).ifReg = s.ifReg := by
  simp [lineDone]
@[simp] theorem lineDone_ieReg (s : State) : (lineDone s).ieReg = s.ieReg := by
  simp [lineDone]
@[simp] theorem lineDone_timer (s : State) : (lineDone s).timer = s.timer := by
  simp [lineDone]
@[simp] theorem lineDone_key1Armed (s : State) : (lineDone s).key1Armed = s.key1Armed := by
  simp [lineDone]
@[simp] theorem lineDone_serial (s : State) : (lineDone s).serial = s.serial := by
  simp [lineDone]
@[simp] theorem lineDone_joypad (s : State) : (lineDone s).joypad = s.joypad := by
  simp [lineDone]
@[simp] theorem lineDone_bus (s : State) : (lineDone s).bus = s.bus := by
  simp [lineDone]
@[simp] theorem lineDone_vram (s : State) : (lineDone s).vram = s.vram := by
  simp [lineDone]
@[simp] theorem lineDone_wram (s : State) : (lineDone s).wram = s.wram := by
  simp [lineDone]
@[simp] theorem lineDone_oam (s : State) : (lineDone s).oam = s.oam := by
  simp [lineDone]
@[simp] theorem lineDone_hram (s : State) : (lineDone s).hram = s.hram := by
  simp [lineDone]
@[simp] theorem lineDone_apu (s : State) : (lineDone s).apu = s.apu := by
  simp [lineDone]
@[simp] theorem lineDone_cart (s : State) : (lineDone s).cart = s.cart := by
  simp [lineDone]
@[simp] theorem lineDone_mbc (s : State) : (lineDone s).mbc = s.mbc := by
  simp [lineDone]
@[simp] theorem lineDone_cram (s : State) : (lineDone s).cram = s.cram := by
  simp [lineDone]
@[simp] theorem lineDone_rtc (s : State) : (lineDone s).rtc = s.rtc := by
  simp [lineDone]
@[simp] theorem lineDone_params (s : State) : (lineDone s).params = s.params := by
  simp [lineDone]
theorem hdmaAtMode0_cpu {s t : State} (h : hdmaAtMode0 s = .ok t) : t.cpu = s.cpu := by
  unfold hdmaAtMode0 at h
  split at h
  · exact hdmaBlock_cpu h
  · cases h; rfl
theorem hdmaAtMode0_fault {s t : State} (h : hdmaAtMode0 s = .ok t) : t.fault = s.fault := by
  unfold hdmaAtMode0 at h
  split at h
  · exact hdmaBlock_fault h
  · cases h; rfl
theorem hdmaAtMode0_clock {s t : State} (h : hdmaAtMode0 s = .ok t) : t.clock = s.clock := by
  unfold hdmaAtMode0 at h
  split at h
  · exact hdmaBlock_clock h
  · cases h; rfl
theorem hdmaAtMode0_ifReg {s t : State} (h : hdmaAtMode0 s = .ok t) : t.ifReg = s.ifReg := by
  unfold hdmaAtMode0 at h
  split at h
  · exact hdmaBlock_ifReg h
  · cases h; rfl
theorem hdmaAtMode0_ieReg {s t : State} (h : hdmaAtMode0 s = .ok t) : t.ieReg = s.ieReg := by
  unfold hdmaAtMode0 at h
  split at h
  · exact hdmaBlock_ieReg h
  · cases h; rfl
theorem hdmaAtMode0_timer {s t : State} (h : hdmaAtMode0 s = .ok t) : t.timer = s.timer := by
  unfold hdmaAtMode0 at h
  split at h
  · exact hdmaBlock_timer h
  · cases h; rfl
theorem hdmaAtMode0_key1Armed {s t : State} (h : hdmaAtMode0 s = .ok t) : t.key1Armed = s.key1Armed := by
  unfold hdmaAtMode0 at h
  split at h
  · exact hdmaBlock_key1Armed h
  · cases h; rfl
theorem hdmaAtMode0_serial {s t : State} (h : hdmaAtMode0 s = .ok t) : t.serial = s.serial := by
  unfold hdmaAtMode0 at h
  split at h
  · exact hdmaBlock_serial h
  · cases h; rfl
theorem hdmaAtMode0_joypad {s t : State} (h : hdmaAtMode0 s = .ok t) : t.joypad = s.joypad := by
  unfold hdmaAtMode0 at h
  split at h
  · exact hdmaBlock_joypad h
  · cases h; rfl
theorem hdmaAtMode0_wram {s t : State} (h : hdmaAtMode0 s = .ok t) : t.wram = s.wram := by
  unfold hdmaAtMode0 at h
  split at h
  · exact hdmaBlock_wram h
  · cases h; rfl
theorem hdmaAtMode0_oam {s t : State} (h : hdmaAtMode0 s = .ok t) : t.oam = s.oam := by
  unfold hdmaAtMode0 at h
  split at h
  · exact hdmaBlock_oam h
  · cases h; rfl
theorem hdmaAtMode0_hram {s t : State} (h : hdmaAtMode0 s = .ok t) : t.hram = s.hram := by
  unfold hdmaAtMode0 at h
  split at h
  · exact hdmaBlock_hram h
  · cases h; rfl
theorem hdmaAtMode0_ppu {s t : State} (h : hdmaAtMode0 s = .ok t) : t.ppu = s.ppu := by
  unfold hdmaAtMode0 at h
  split at h
  · exact hdmaBlock_ppu h
  · cases h; rfl
theorem hdmaAtMode0_apu {s t : State} (h : hdmaAtMode0 s = .ok t) : t.apu = s.apu := by
  unfold hdmaAtMode0 at h
  split at h
  · exact hdmaBlock_apu h
  · cases h; rfl
theorem hdmaAtMode0_cart {s t : State} (h : hdmaAtMode0 s = .ok t) : t.cart = s.cart := by
  unfold hdmaAtMode0 at h
  split at h
  · exact hdmaBlock_cart h
  · cases h; rfl
theorem hdmaAtMode0_mbc {s t : State} (h : hdmaAtMode0 s = .ok t) : t.mbc = s.mbc := by
  unfold hdmaAtMode0 at h
  split at h
  · exact hdmaBlock_mbc h
  · cases h; rfl
theorem hdmaAtMode0_cram {s t : State} (h : hdmaAtMode0 s = .ok t) : t.cram = s.cram := by
  unfold hdmaAtMode0 at h
  split at h
  · exact hdmaBlock_cram h
  · cases h; rfl
theorem hdmaAtMode0_rtc {s t : State} (h : hdmaAtMode0 s = .ok t) : t.rtc = s.rtc := by
  unfold hdmaAtMode0 at h
  split at h
  · exact hdmaBlock_rtc h
  · cases h; rfl
theorem hdmaAtMode0_params {s t : State} (h : hdmaAtMode0 s = .ok t) : t.params = s.params := by
  unfold hdmaAtMode0 at h
  split at h
  · exact hdmaBlock_params h
  · cases h; rfl
theorem enterMode0_cpu {s t : State} (h : enterMode0 s = .ok t) : t.cpu = s.cpu := by
  obtain ⟨s1, h1, h⟩ := bind_eq_ok.mp h
  cases h
  simpa using hdmaAtMode0_cpu h1
theorem enterMode0_fault {s t : State} (h : enterMode0 s = .ok t) : t.fault = s.fault := by
  obtain ⟨s1, h1, h⟩ := bind_eq_ok.mp h
  cases h
  simpa using hdmaAtMode0_fault h1
theorem enterMode0_clock {s t : State} (h : enterMode0 s = .ok t) : t.clock = s.clock := by
  obtain ⟨s1, h1, h⟩ := bind_eq_ok.mp h
  cases h
  simpa using hdmaAtMode0_clock h1
theorem enterMode0_ieReg {s t : State} (h : enterMode0 s = .ok t) : t.ieReg = s.ieReg := by
  obtain ⟨s1, h1, h⟩ := bind_eq_ok.mp h
  cases h
  simpa using hdmaAtMode0_ieReg h1
theorem enterMode0_timer {s t : State} (h : enterMode0 s = .ok t) : t.timer = s.timer := by
  obtain ⟨s1, h1, h⟩ := bind_eq_ok.mp h
  cases h
  simpa using hdmaAtMode0_timer h1
theorem enterMode0_key1Armed {s t : State} (h : enterMode0 s = .ok t) : t.key1Armed = s.key1Armed := by
  obtain ⟨s1, h1, h⟩ := bind_eq_ok.mp h
  cases h
  simpa using hdmaAtMode0_key1Armed h1
theorem enterMode0_serial {s t : State} (h : enterMode0 s = .ok t) : t.serial = s.serial := by
  obtain ⟨s1, h1, h⟩ := bind_eq_ok.mp h
  cases h
  simpa using hdmaAtMode0_serial h1
theorem enterMode0_joypad {s t : State} (h : enterMode0 s = .ok t) : t.joypad = s.joypad := by
  obtain ⟨s1, h1, h⟩ := bind_eq_ok.mp h
  cases h
  simpa using hdmaAtMode0_joypad h1
theorem enterMode0_wram {s t : State} (h : enterMode0 s = .ok t) : t.wram = s.wram := by
  obtain ⟨s1, h1, h⟩ := bind_eq_ok.mp h
  cases h
  simpa using hdmaAtMode0_wram h1
theorem enterMode0_oam {s t : State} (h : enterMode0 s = .ok t) : t.oam = s.oam := by
  obtain ⟨s1, h1, h⟩ := bind_eq_ok.mp h
  cases h
  simpa using hdmaAtMode0_oam h1
theorem enterMode0_hram {s t : State} (h : enterMode0 s = .ok t) : t.hram = s.hram := by
  obtain ⟨s1, h1, h⟩ := bind_eq_ok.mp h
  cases h
  simpa using hdmaAtMode0_hram h1
theorem enterMode0_apu {s t : State} (h : enterMode0 s = .ok t) : t.apu = s.apu := by
  obtain ⟨s1, h1, h⟩ := bind_eq_ok.mp h
  cases h
  simpa using hdmaAtMode0_apu h1
theorem enterMode0_cart {s t : State} (h : enterMode0 s = .ok t) : t.cart = s.cart := by
  obtain ⟨s1, h1, h⟩ := bind_eq_ok.mp h
  cases h
  simpa using hdmaAtMode0_cart h1
theorem enterMode0_mbc {s t : State} (h : enterMode0 s = .ok t) : t.mbc = s.mbc := by
  obtain ⟨s1, h1, h⟩ := bind_eq_ok.mp h
  cases h
  simpa using hdmaAtMode0_mbc h1
theorem enterMode0_cram {s t : State} (h : enterMode0 s = .ok t) : t.cram = s.cram := by
  obtain ⟨s1, h1, h⟩ := bind_eq_ok.mp h
  cases h
  simpa using hdmaAtMode0_cram h1
theorem enterMode0_rtc {s t : State} (h : enterMode0 s = .ok t) : t.rtc = s.rtc := by
  obtain ⟨s1, h1, h⟩ := bind_eq_ok.mp h
  cases h
  simpa using hdmaAtMode0_rtc h1
theorem enterMode0_params {s t : State} (h : enterMode0 s = .ok t) : t.params = s.params := by
  obtain ⟨s1, h1, h⟩ := bind_eq_ok.mp h
  cases h
  simpa using hdmaAtMode0_params h1
@[simp] theorem mode3At80_cpu (s : State) : (mode3At80 s).cpu = s.cpu := by
  unfold mode3At80; split <;> simp
@[simp] theorem mode3At80_fault (s : State) : (mode3At80 s).fault = s.fault := by
  unfold mode3At80; split <;> simp
@[simp] theorem mode3At80_clock (s : State) : (mode3At80 s).clock = s.clock := by
  unfold mode3At80; split <;> simp
@[simp] theorem mode3At80_ifReg (s : State) : (mode3At80 s).ifReg = s.ifReg := by
  unfold mode3At80; split <;> simp
@[simp] theorem mode3At80_ieReg (s : State) : (mode3At80 s).ieReg = s.ieReg := by
  unfold mode3At80; split <;> simp
@[simp] theorem mode3At80_timer (s : State) : (mode3At80 s).timer = s.timer := by
  unfold mode3At80; split <;> simp
@[simp] theorem mode3At80_key1Armed (s : State) : (mode3At80 s).key1Armed = s.key1Armed := by
  unfold mode3At80; split <;> simp
@[simp] theorem mode3At80_serial (s : State) : (mode3At80 s).serial = s.serial := by
  unfold mode3At80; split <;> simp
@[simp] theorem mode3At80_joypad (s : State) : (mode3At80 s).joypad = s.joypad := by
  unfold mode3At80; split <;> simp
@[simp] theorem mode3At80_bus (s : State) : (mode3At80 s).bus = s.bus := by
  unfold mode3At80; split <;> simp
@[simp] theorem mode3At80_vram (s : State) : (mode3At80 s).vram = s.vram := by
  unfold mode3At80; split <;> simp
@[simp] theorem mode3At80_wram (s : State) : (mode3At80 s).wram = s.wram := by
  unfold mode3At80; split <;> simp
@[simp] theorem mode3At80_oam (s : State) : (mode3At80 s).oam = s.oam := by
  unfold mode3At80; split <;> simp
@[simp] theorem mode3At80_hram (s : State) : (mode3At80 s).hram = s.hram := by
  unfold mode3At80; split <;> simp
@[simp] theorem mode3At80_apu (s : State) : (mode3At80 s).apu = s.apu := by
  unfold mode3At80; split <;> simp
@[simp] theorem mode3At80_cart (s : State) : (mode3At80 s).cart = s.cart := by
  unfold mode3At80; split <;> simp
@[simp] theorem mode3At80_mbc (s : State) : (mode3At80 s).mbc = s.mbc := by
  unfold mode3At80; split <;> simp
@[simp] theorem mode3At80_cram (s : State) : (mode3At80 s).cram = s.cram := by
  unfold mode3At80; split <;> simp
@[simp] theorem mode3At80_rtc (s : State) : (mode3At80 s).rtc = s.rtc := by
  unfold mode3At80; split <;> simp
@[simp] theorem mode3At80_params (s : State) : (mode3At80 s).params = s.params := by
  unfold mode3At80; split <;> simp
theorem mode0AtEnd_cpu {s t : State} (h : mode0AtEnd s = .ok t) : t.cpu = s.cpu := by
  unfold mode0AtEnd at h
  split at h
  · exact enterMode0_cpu h
  · cases h; rfl
theorem mode0AtEnd_fault {s t : State} (h : mode0AtEnd s = .ok t) : t.fault = s.fault := by
  unfold mode0AtEnd at h
  split at h
  · exact enterMode0_fault h
  · cases h; rfl
theorem mode0AtEnd_clock {s t : State} (h : mode0AtEnd s = .ok t) : t.clock = s.clock := by
  unfold mode0AtEnd at h
  split at h
  · exact enterMode0_clock h
  · cases h; rfl
theorem mode0AtEnd_ieReg {s t : State} (h : mode0AtEnd s = .ok t) : t.ieReg = s.ieReg := by
  unfold mode0AtEnd at h
  split at h
  · exact enterMode0_ieReg h
  · cases h; rfl
theorem mode0AtEnd_timer {s t : State} (h : mode0AtEnd s = .ok t) : t.timer = s.timer := by
  unfold mode0AtEnd at h
  split at h
  · exact enterMode0_timer h
  · cases h; rfl
theorem mode0AtEnd_key1Armed {s t : State} (h : mode0AtEnd s = .ok t) : t.key1Armed = s.key1Armed := by
  unfold mode0AtEnd at h
  split at h
  · exact enterMode0_key1Armed h
  · cases h; rfl
theorem mode0AtEnd_serial {s t : State} (h : mode0AtEnd s = .ok t) : t.serial = s.serial := by
  unfold mode0AtEnd at h
  split at h
  · exact enterMode0_serial h
  · cases h; rfl
theorem mode0AtEnd_joypad {s t : State} (h : mode0AtEnd s = .ok t) : t.joypad = s.joypad := by
  unfold mode0AtEnd at h
  split at h
  · exact enterMode0_joypad h
  · cases h; rfl
theorem mode0AtEnd_wram {s t : State} (h : mode0AtEnd s = .ok t) : t.wram = s.wram := by
  unfold mode0AtEnd at h
  split at h
  · exact enterMode0_wram h
  · cases h; rfl
theorem mode0AtEnd_oam {s t : State} (h : mode0AtEnd s = .ok t) : t.oam = s.oam := by
  unfold mode0AtEnd at h
  split at h
  · exact enterMode0_oam h
  · cases h; rfl
theorem mode0AtEnd_hram {s t : State} (h : mode0AtEnd s = .ok t) : t.hram = s.hram := by
  unfold mode0AtEnd at h
  split at h
  · exact enterMode0_hram h
  · cases h; rfl
theorem mode0AtEnd_apu {s t : State} (h : mode0AtEnd s = .ok t) : t.apu = s.apu := by
  unfold mode0AtEnd at h
  split at h
  · exact enterMode0_apu h
  · cases h; rfl
theorem mode0AtEnd_cart {s t : State} (h : mode0AtEnd s = .ok t) : t.cart = s.cart := by
  unfold mode0AtEnd at h
  split at h
  · exact enterMode0_cart h
  · cases h; rfl
theorem mode0AtEnd_mbc {s t : State} (h : mode0AtEnd s = .ok t) : t.mbc = s.mbc := by
  unfold mode0AtEnd at h
  split at h
  · exact enterMode0_mbc h
  · cases h; rfl
theorem mode0AtEnd_cram {s t : State} (h : mode0AtEnd s = .ok t) : t.cram = s.cram := by
  unfold mode0AtEnd at h
  split at h
  · exact enterMode0_cram h
  · cases h; rfl
theorem mode0AtEnd_rtc {s t : State} (h : mode0AtEnd s = .ok t) : t.rtc = s.rtc := by
  unfold mode0AtEnd at h
  split at h
  · exact enterMode0_rtc h
  · cases h; rfl
theorem mode0AtEnd_params {s t : State} (h : mode0AtEnd s = .ok t) : t.params = s.params := by
  unfold mode0AtEnd at h
  split at h
  · exact enterMode0_params h
  · cases h; rfl
theorem lineEvents_cpu {s t : State} (h : lineEvents s = .ok t) : t.cpu = s.cpu := by
  unfold lineEvents at h
  split at h
  · simpa using mode0AtEnd_cpu h
  · cases h; rfl
theorem lineEvents_fault {s t : State} (h : lineEvents s = .ok t) : t.fault = s.fault := by
  unfold lineEvents at h
  split at h
  · simpa using mode0AtEnd_fault h
  · cases h; rfl
theorem lineEvents_clock {s t : State} (h : lineEvents s = .ok t) : t.clock = s.clock := by
  unfold lineEvents at h
  split at h
  · simpa using mode0AtEnd_clock h
  · cases h; rfl
theorem lineEvents_ieReg {s t : State} (h : lineEvents s = .ok t) : t.ieReg = s.ieReg := by
  unfold lineEvents at h
  split at h
  · simpa using mode0AtEnd_ieReg h
  · cases h; rfl
theorem lineEvents_timer {s t : State} (h : lineEvents s = .ok t) : t.timer = s.timer := by
  unfold lineEvents at h
  split at h
  · simpa using mode0AtEnd_timer h
  · cases h; rfl
theorem lineEvents_key1Armed {s t : State} (h : lineEvents s = .ok t) : t.key1Armed = s.key1Armed := by
  unfold lineEvents at h
  split at h
  · simpa using mode0AtEnd_key1Armed h
  · cases h; rfl
theorem lineEvents_serial {s t : State} (h : lineEvents s = .ok t) : t.serial = s.serial := by
  unfold lineEvents at h
  split at h
  · simpa using mode0AtEnd_serial h
  · cases h; rfl
theorem lineEvents_joypad {s t : State} (h : lineEvents s = .ok t) : t.joypad = s.joypad := by
  unfold lineEvents at h
  split at h
  · simpa using mode0AtEnd_joypad h
  · cases h; rfl
theorem lineEvents_wram {s t : State} (h : lineEvents s = .ok t) : t.wram = s.wram := by
  unfold lineEvents at h
  split at h
  · simpa using mode0AtEnd_wram h
  · cases h; rfl
theorem lineEvents_oam {s t : State} (h : lineEvents s = .ok t) : t.oam = s.oam := by
  unfold lineEvents at h
  split at h
  · simpa using mode0AtEnd_oam h
  · cases h; rfl
theorem lineEvents_hram {s t : State} (h : lineEvents s = .ok t) : t.hram = s.hram := by
  unfold lineEvents at h
  split at h
  · simpa using mode0AtEnd_hram h
  · cases h; rfl
theorem lineEvents_apu {s t : State} (h : lineEvents s = .ok t) : t.apu = s.apu := by
  unfold lineEvents at h
  split at h
  · simpa using mode0AtEnd_apu h
  · cases h; rfl
theorem lineEvents_cart {s t : State} (h : lineEvents s = .ok t) : t.cart = s.cart := by
  unfold lineEvents at h
  split at h
  · simpa using mode0AtEnd_cart h
  · cases h; rfl
theorem lineEvents_mbc {s t : State} (h : lineEvents s = .ok t) : t.mbc = s.mbc := by
  unfold lineEvents at h
  split at h
  · simpa using mode0AtEnd_mbc h
  · cases h; rfl
theorem lineEvents_cram {s t : State} (h : lineEvents s = .ok t) : t.cram = s.cram := by
  unfold lineEvents at h
  split at h
  · simpa using mode0AtEnd_cram h
  · cases h; rfl
theorem lineEvents_rtc {s t : State} (h : lineEvents s = .ok t) : t.rtc = s.rtc := by
  unfold lineEvents at h
  split at h
  · simpa using mode0AtEnd_rtc h
  · cases h; rfl
theorem lineEvents_params {s t : State} (h : lineEvents s = .ok t) : t.params = s.params := by
  unfold lineEvents at h
  split at h
  · simpa using mode0AtEnd_params h
  · cases h; rfl
theorem ppuCycle_cpu {s t : State} (h : ppuCycle s = .ok t) : t.cpu = s.cpu := by
  obtain ⟨s1, h1, h⟩ := bind_eq_ok.mp h
  cases h
  simpa using lineEvents_cpu h1
theorem ppuCycle_fault {s t : State} (h : ppuCycle s = .ok t) : t.fault = s.fault := by
  obtain ⟨s1, h1, h⟩ := bind_eq_ok.mp h
  cases h
  simpa using lineEvents_fault h1
theorem ppuCycle_clock {s t : State} (h : ppuCycle s = .ok t) : t.clock = s.clock := by
  obtain ⟨s1, h1, h⟩ := bind_eq_ok.mp h
  cases h
  simpa using lineEvents_clock h1
theorem ppuCycle_ieReg {s t : State} (h : ppuCycle s = .ok t) : t.ieReg = s.ieReg := by
  obtain ⟨s1, h1, h⟩ := bind_eq_ok.mp h
  cases h
  simpa using lineEvents_ieReg h1
theorem ppuCycle_timer {s t : State} (h : ppuCycle s = .ok t) : t.timer = s.timer := by
  obtain ⟨s1, h1, h⟩ := bind_eq_ok.mp h
  cases h
  simpa using lineEvents_timer h1
theorem ppuCycle_key1Armed {s t : State} (h : ppuCycle s = .ok t) : t.key1Armed = s.key1Armed := by
  obtain ⟨s1, h1, h⟩ := bind_eq_ok.mp h
  cases h
  simpa using lineEvents_key1Armed h1
theorem ppuCycle_serial {s t : State} (h : ppuCycle s = .ok t) : t.serial = s.serial := by
  obtain ⟨s1, h1, h⟩ := bind_eq_ok.mp h
  cases h
  simpa using lineEvents_serial h1
theorem ppuCycle_joypad {s t : State} (h : ppuCycle s = .ok t) : t.joypad = s.joypad := by
  obtain ⟨s1, h1, h⟩ := bind_eq_ok.mp h
  cases h
  simpa using lineEvents_joypad h1
theorem ppuCycle_wram {s t : State} (h : ppuCycle s = .ok t) : t.wram = s.wram := by
  obtain ⟨s1, h1, h⟩ := bind_eq_ok.mp h
  cases h
  simpa using lineEvents_wram h1
theorem ppuCycle_oam {s t : State} (h : ppuCycle s = .ok t) : t.oam = s.oam := by
  obtain ⟨s1, h1, h⟩ := bind_eq_ok.mp h
  cases h
  simpa using lineEvents_oam h1
theorem ppuCycle_hram {s t : State} (h : ppuCycle s = .ok t) : t.hram = s.hram := by
  obtain ⟨s1, h1, h⟩ := bind_eq_ok.mp h
  cases h
  simpa using lineEvents_hram h1
theorem ppuCycle_apu {s t : State} (h : ppuCycle s = .ok t) : t.apu = s.apu := by
  obtain ⟨s1, h1, h⟩ := bind_eq_ok.mp h
  cases h
  simpa using lineEvents_apu h1
theorem ppuCycle_cart {s t : State} (h : ppuCycle s = .ok t) : t.cart = s.cart := by
  obtain ⟨s1, h1, h⟩ := bind_eq_ok.mp h
  cases h
  simpa using lineEvents_cart h1
theorem ppuCycle_mbc {s t : State} (h : ppuCycle s = .ok t) : t.mbc = s.mbc := by
  obtain ⟨s1, h1, h⟩ := bind_eq_ok.mp h
  cases h
  simpa using lineEvents_mbc h1
theorem ppuCycle_cram {s t : State} (h : ppuCycle s = .ok t) : t.cram = s.cram := by
  obtain ⟨s1, h1, h⟩ := bind_eq_ok.mp h
  cases h
  simpa using lineEvents_cram h1
theorem ppuCycle_rtc {s t : State} (h : ppuCycle s = .ok t) : t.rtc = s.rtc := by
  obtain ⟨s1, h1, h⟩ := bind_eq_ok.mp h
  cases h
  simpa using lineEvents_rtc h1
theorem ppuCycle_params {s t : State} (h : ppuCycle s = .ok t) : t.params = s.params := by
  obtain ⟨s1, h1, h⟩ := bind_eq_ok.mp h
  cases h
  simpa using lineEvents_params h1
theorem ppuCycles_cpu {n : Nat} {s t : State} (h : ppuCycles n s = .ok t) : t.cpu = s.cpu := by
  induction n generalizing s with
  | zero => cases h; rfl
  | succ n ih =>
    obtain ⟨s1, h1, h⟩ := bind_eq_ok.mp h
    rw [ih h, ppuCycle_cpu h1]
theorem ppuCycles_fault {n : Nat} {s t : State} (h : ppuCycles n s = .ok t) : t.fault = s.fault := by
  induction n generalizing s with
  | zero => cases h; rfl
  | succ n ih =>
    obtain ⟨s1, h1, h⟩ := bind_eq_ok.mp h
    rw [ih h, ppuCycle_fault h1]
theorem ppuCycles_clock {n : Nat} {s t : State} (h : ppuCycles n s = .ok t) : t.clock = s.clock := by
  induction n generalizing s with
  | zero => cases h; rfl
  | succ n ih =>
    obtain ⟨s1, h1, h⟩ := bind_eq_ok.mp h
    rw [ih h, ppuCycle_clock h1]
theorem ppuCycles_ieReg {n : Nat} {s t : State} (h : ppuCycles n s = .ok t) : t.ieReg = s.ieReg := by
  induction n generalizing s with
  | zero => cases h; rfl
  | succ n ih =>
    obtain ⟨s1, h1, h⟩ := bind_eq_ok.mp h
    rw [ih h, ppuCycle_ieReg h1]
theorem ppuCycles_timer {n : Nat} {s t : State} (h : ppuCycles n s = .ok t) : t.timer = s.timer := by
  induction n generalizing s with
  | zero => cases h; rfl
  | succ n ih =>
    obtain ⟨s1, h1, h⟩ := bind_eq_ok.mp h
    rw [ih h, ppuCycle_timer h1]
theorem ppuCycles_key1Armed {n : Nat} {s t : State} (h : ppuCycles n s = .ok t) : t.key1Armed = s.key1Armed := by
  induction n generalizing s with
  | zero => cases h; rfl
  | succ n ih =>
    obtain ⟨s1, h1, h⟩ := bind_eq_ok.mp h
    rw [ih h, ppuCycle_key1Armed h1]
theorem ppuCycles_serial {n : Nat} {s t : State} (h : ppuCycles n s = .ok t) : t.serial = s.serial := by
  induction n generalizing s with
  | zero => cases h; rfl
  | succ n ih =>
    obtain ⟨s1, h1, h⟩ := bind_eq_ok.mp h
    rw [ih h, ppuCycle_serial h1]
theorem ppuCycles_joypad {n : Nat} {s t : State} (h : ppuCycles n s = .ok t) : t.joypad = s.joypad := by
  induction n generalizing s with
  | zero => cases h; rfl
  | succ n ih =>
    obtain ⟨s1, h1, h⟩ := bind_eq_ok.mp h
    rw [ih h, ppuCycle_joypad h1]
theorem ppuCycles_wram {n : Nat} {s t : State} (h : ppuCycles n s = .ok t) : t.wram = s.wram := by
  induction n generalizing s with
  | zero => cases h; rfl
  | succ n ih =>
    obtain ⟨s1, h1, h⟩ := bind_eq_ok.mp h
    rw [ih h, ppuCycle_wram h1]
theorem ppuCycles_oam {n : Nat} {s t : State} (h : ppuCycles n s = .ok t) : t.oam = s.oam := by
  induction n generalizing s with
  | zero => cases h; rfl
  | succ n ih =>
    obtain ⟨s1, h1, h⟩ := bind_eq_ok.mp h
    rw [ih h, ppuCycle_oam h1]
theorem ppuCycles_hram {n : Nat} {s t : State} (h : ppuCycles n s = .ok t) : t.hram = s.hram := by
  induction n generalizing s with
  | zero => cases h; rfl
  | succ n ih =>
    obtain ⟨s1, h1, h⟩ := bind_eq_ok.mp h
    rw [ih h, ppuCycle_hram h1]
theorem ppuCycles_apu {n : Nat} {s t : State} (h : ppuCycles n s = .ok t) : t.apu = s.apu := by
  induction n generalizing s with
  | zero => cases h; rfl
  | succ n ih =>
    obtain ⟨s1, h1, h⟩ := bind_eq_ok.mp h
    rw [ih h, ppuCycle_apu h1]
theorem ppuCycles_cart {n : Nat} {s t : State} (h : ppuCycles n s = .ok t) : t.cart = s.cart := by
  induction n generalizing s with
  | zero => cases h; rfl
  | succ n ih =>
    obtain ⟨s1, h1, h⟩ := bind_eq_ok.mp h
    rw [ih h, ppuCycle_cart h1]
theorem ppuCycles_mbc {n : Nat} {s t : State} (h : ppuCycles n s = .ok t) : t.mbc = s.mbc := by
  induction n generalizing s with
  | zero => cases h; rfl
  | succ n ih =>
    obtain ⟨s1, h1, h⟩ := bind_eq_ok.mp h
    rw [ih h, ppuCycle_mbc h1]
theorem ppuCycles_cram {n : Nat} {s t : State} (h : ppuCycles n s = .ok t) : t.cram = s.cram := by
  induction n generalizing s with
  | zero => cases h; rfl
  | succ n ih =>
    obtain ⟨s1, h1, h⟩ := bind_eq_ok.mp h
    rw [ih h, ppuCycle_cram h1]
theorem ppuCycles_rtc {n : Nat} {s t : State} (h : ppuCycles n s = .ok t) : t.rtc = s.rtc := by
  induction n generalizing s with
  | zero => cases h; rfl
  | succ n ih =>
    obtain ⟨s1, h1, h⟩ := bind_eq_ok.mp h
    rw [ih h, ppuCycle_rtc h1]
theorem ppuCycles_params {n : Nat} {s t : State} (h : ppuCycles n s = .ok t) : t.params = s.params := by
  induction n generalizing s with
  | zero => cases h; rfl
  | succ n ih =>
    obtain ⟨s1, h1, h⟩ := bind_eq_ok.mp h
    rw [ih h, ppuCycle_params h1]
theorem ppuAdvance_cpu {n : Nat} {s t : State} (h : ppuAdvance n s = .ok t) : t.cpu = s.cpu := by
  unfold ppuAdvance at h
  split at h
  · exact ppuCycles_cpu h
  · cases h; rfl
theorem ppuAdvance_fault {n : Nat} {s t : State} (h : ppuAdvance n s = .ok t) : t.fault = s.fault := by
  unfold ppuAdvance at h
  split at h
  · exact ppuCycles_fault h
  · cases h; rfl
theorem ppuAdvance_clock {n : Nat} {s t : State} (h : ppuAdvance n s = .ok t) : t.clock = s.clock := by
  unfold ppuAdvance at h
  split at h
  · exact ppuCycles_clock h
  · cases h; rfl
theorem ppuAdvance_ieReg {n : Nat} {s t : State} (h : ppuAdvance n s = .ok t) : t.ieReg = s.ieReg := by
  unfold ppuAdvance at h
  split at h
  · exact ppuCycles_ieReg h
  · cases h; rfl
theorem ppuAdvance_timer {n : Nat} {s t : State} (h : ppuAdvance n s = .ok t) : t.timer = s.timer := by
  unfold ppuAdvance at h
  split at h
  · exact ppuCycles_timer h
  · cases h; rfl
theorem ppuAdvance_key1Armed {n : Nat} {s t : State} (h : ppuAdvance n s = .ok t) : t.key1Armed = s.key1Armed := by
  unfold ppuAdvance at h
  split at h
  · exact ppuCycles_key1Armed h
  · cases h; rfl
theorem ppuAdvance_serial {n : Nat} {s t : State} (h : ppuAdvance n s = .ok t) : t.serial = s.serial := by
  unfold ppuAdvance at h
  split at h
  · exact ppuCycles_serial h
  · cases h; rfl
theorem ppuAdvance_joypad {n : Nat} {s t : State} (h : ppuAdvance n s = .ok t) : t.joypad = s.joypad := by
  unfold ppuAdvance at h
  split at h
  · exact ppuCycles_joypad h
  · cases h; rfl
theorem ppuAdvance_wram {n : Nat} {s t : State} (h : ppuAdvance n s = .ok t) : t.wram = s.wram := by
  unfold ppuAdvance at h
  split at h
  · exact ppuCycles_wram h
  · cases h; rfl
theorem ppuAdvance_oam {n : Nat} {s t : State} (h : ppuAdvance n s = .ok t) : t.oam = s.oam := by
  unfold ppuAdvance at h
  split at h
  · exact ppuCycles_oam h
  · cases h; rfl
theorem ppuAdvance_hram {n : Nat} {s t : State} (h : ppuAdvance n s = .ok t) : t.hram = s.hram := by
  unfold ppuAdvance at h
  split at h
  · exact ppuCycles_hram h
  · cases h; rfl
theorem ppuAdvance_apu {n : Nat} {s t : State} (h : ppuAdvance n s = .ok t) : t.apu = s.apu := by
  unfold ppuAdvance at h
  split at h
  · exact ppuCycles_apu h
  · cases h; rfl
theorem ppuAdvance_cart {n : Nat} {s t : State} (h : ppuAdvance n s = .ok t) : t.cart = s.cart := by
  unfold ppuAdvance at h
  split at h
  · exact ppuCycles_cart h
  · cases h; rfl
theorem ppuAdvance_mbc {n : Nat} {s t : State} (h : ppuAdvance n s = .ok t) : t.mbc = s.mbc := by
  unfold ppuAdvance at h
  split at h
  · exact ppuCycles_mbc h
  · cases h; rfl
theorem ppuAdvance_cram {n : Nat} {s t : State} (h : ppuAdvance n s = .ok t) : t.cram = s.cram := by
  unfold ppuAdvance at h
  split at h
  · exact ppuCycles_cram h
  · cases h; rfl
theorem ppuAdvance_rtc {n : Nat} {s t : State} (h : ppuAdvance n s = .ok t) : t.rtc = s.rtc := by
  unfold ppuAdvance at h
  split at h
  · exact ppuCycles_rtc h
  · cases h; rfl
theorem ppuAdvance_params {n : Nat} {s t : State} (h : ppuAdvance n s = .ok t) : t.params = s.params := by
  unfold ppuAdvance at h
  split at h
  · exact ppuCycles_params h
  · cases h; rfl
theorem tick_cpu {n : Nat} {s t : State} (h : tick n s = .ok t) : t.cpu = s.cpu := by
  obtain ⟨s1, h1, h⟩ := bind_eq_ok.mp h
  cases h
  simpa using ppuAdvance_cpu h1
theorem tick_fault {n : Nat} {s t : State} (h : tick n s = .ok t) : t.fault = s.fault := by
  obtain ⟨s1, h1, h⟩ := bind_eq_ok.mp h
  cases h
  simpa using ppuAdvance_fault h1
theorem tick_clock {n : Nat} {s t : State} (h : tick n s = .ok t) : t.clock = s.clock := by
  obtain ⟨s1, h1, h⟩ := bind_eq_ok.mp h
  cases h
  simpa using ppuAdvance_clock h1
theorem tick_ieReg {n : Nat} {s t : State} (h : tick n s = .ok t) : t.ieReg = s.ieReg := by
  obtain ⟨s1, h1, h⟩ := bind_eq_ok.mp h
  cases h
  simpa using ppuAdvance_ieReg h1
theorem tick_key1Armed {n : Nat} {s t : State} (h : tick n s = .ok t) : t.key1Armed = s.key1Armed := by
  obtain ⟨s1, h1, h⟩ := bind_eq_ok.mp h
  cases h
  simpa using ppuAdvance_key1Armed h1
theorem tick_joypad {n : Nat} {s t : State} (h : tick n s = .ok t) : t.joypad = s.joypad := by
  obtain ⟨s1, h1, h⟩ := bind_eq_ok.mp h
  cases h
  simpa using ppuAdvance_joypad h1
theorem tick_wram {n : Nat} {s t : State} (h : tick n s = .ok t) : t.wram = s.wram := by
  obtain ⟨s1, h1, h⟩ := bind_eq_ok.mp h
  cases h
  simpa using ppuAdvance_wram h1
theorem tick_oam {n : Nat} {s t : State} (h : tick n s = .ok t) : t.oam = s.oam := by
  obtain ⟨s1, h1, h⟩ := bind_eq_ok.mp h
  cases h
  simpa using ppuAdvance_oam h1
theorem tick_hram {n : Nat} {s t : State} (h : tick n s = .ok t) : t.hram = s.hram := by
  obtain ⟨s1, h1, h⟩ := bind_eq_ok.mp h
  cases h
  simpa using ppuAdvance_hram h1
theorem tick_cart {n : Nat} {s t : State} (h : tick n s = .ok t) : t.cart = s.cart := by
  obtain ⟨s1, h1, h⟩ := bind_eq_ok.mp h
  cases h
  simpa using ppuAdvance_cart h1
theorem tick_mbc {n : Nat} {s t : State} (h : tick n s = .ok t) : t.mbc = s.mbc := by
  obtain ⟨s1, h1, h⟩ := bind_eq_ok.mp h
  cases h
  simpa using ppuAdvance_mbc h1
theorem tick_cram {n : Nat} {s t : State} (h : tick n s = .ok t) : t.cram = s.cram := by
  obtain ⟨s1, h1, h⟩ := bind_eq_ok.mp h
  cases h
  simpa using ppuAdvance_cram h1
theorem tick_rtc {n : Nat} {s t : State} (h : tick n s = .ok t) : t.rtc = s.rtc := by
  obtain ⟨s1, h1, h⟩ := bind_eq_ok.mp h
  cases h
  simpa using ppuAdvance_rtc h1
theorem tick_params {n : Nat} {s t : State} (h : tick n s = .ok t) : t.params = s.params := by
  obtain ⟨s1, h1, h⟩ := bind_eq_ok.mp h
  cases h
  simpa using ppuAdvance_params h1

end Sys2Proof.Machine
end

