-- ==== Sys2Proof/Laws/Frame.lean ====
section
/-! SUPPORT. The frame of each register and flag update, how frames compose, and words by their two bytes. -/

namespace Sys2Proof.Machine

theorem Frame.refl (w : List Reg8) (s : State) : Frame w s s :=
  ⟨fun _ _ => rfl, rfl, rfl, ⟨rfl, rfl, rfl, rfl, rfl⟩, rfl⟩

/-- Two updates with the same frame compose. -/
theorem Frame.trans {w : List Reg8} {s t u : State} (h : Frame w s t) (h' : Frame w t u) : Frame w s u := by
  obtain ⟨r, sp, pc, ⟨a, b, c, d, e⟩, m⟩ := h
  obtain ⟨r', sp', pc', ⟨a', b', c', d', e'⟩, m'⟩ := h'
  refine ⟨fun q hq => (r' q hq).trans (r q hq), sp'.trans sp, pc'.trans pc,
    ⟨a'.trans a, b'.trans b, c'.trans c, d'.trans d, e'.trans e⟩, ?_⟩
  unfold SameBeyondCpu at m m' ⊢
  rw [m', m]

/-- More written registers, weaker frame. -/
theorem Frame.mono {w w' : List Reg8} {s t : State} (h : Frame w s t) (hw : ∀ r ∈ w, r ∈ w') : Frame w' s t :=
  ⟨fun q hq => h.1 q (fun hm => hq (hw q hm)), h.2⟩

theorem frame_setReg (r : Reg8) (v : Byte) (s : State) : Frame [r] s (setReg r v s) := by
  refine ⟨fun q hq => getReg_setReg_other (by simpa using hq) v s, ?_, ?_, ⟨?_, ?_, ?_, ?_, ?_⟩, ?_⟩ <;>
    cases r <;> rfl

theorem frame_setFlags (f : Flags) (w : List Reg8) (s : State) : Frame w s (setFlags f s) :=
  ⟨fun q _ => by cases q <;> rfl, rfl, rfl, ⟨rfl, rfl, rfl, rfl, rfl⟩, rfl⟩

theorem frame_setHl (v : Word) (s : State) : Frame [.h, .l] s (setHl v s) := by
  refine ⟨fun q hq => ?_, rfl, rfl, ⟨rfl, rfl, rfl, rfl, rfl⟩, rfl⟩
  cases q <;> first | rfl | exact absurd (by simp) hq

/-- The high page address of R129 by its value. -/
theorem eq_highPage {lo : Byte} {a : Word} (h : a.toNat = 0xFF00 + lo.toNat) : a = highPage lo := by
  apply BitVec.eq_of_toNat_eq
  unfold highPage
  rw [word_toNat, h]
  rfl

/-- A form's row answers the state its operation answers. -/
theorem exec_next {f : Form} {s t : State} (h : runForm f s = .ok t) : exec f.toInstr s = .next t := by
  rw [exec_toInstr, h]; rfl

/-- A form's row ends in the fault its operation ends in. -/
theorem exec_fault {f : Form} {s : State} {e : Fault} (h : runForm f s = .error e) : exec f.toInstr s = .fault e := by
  rw [exec_toInstr, h]; rfl

/-- The condition of R300 and its statement form. -/
theorem condition_eq (cc : Cond) (s : State) : condition cc s = condHolds cc s.cpu.zf s.cpu.cf := by cases cc <;> rfl

/-- A push is two bus writes with `SP` moved before each (R13). -/
theorem push16_ok {v : Word} {s s1 s2 : State}
    (h1 : writeByte { s with cpu := { s.cpu with sp := s.cpu.sp - 1 } } (s.cpu.sp - 1) (hiByte v) = .ok s1)
    (h2 : writeByte { s1 with cpu := { s1.cpu with sp := s.cpu.sp - 2 } } (s.cpu.sp - 2) (loByte v) = .ok s2) :
    push16 v s = .ok s2 ∧ s2.cpu = { s.cpu with sp := s.cpu.sp - 2 } := by
  have c1 := writeByte_cpu h1
  have c2 := writeByte_cpu h2
  have e : s1.cpu.sp - 1 = s.cpu.sp - 2 := by
    rw [c1]
    show s.cpu.sp - 1 - 1 = s.cpu.sp - 2
    bv_omega
  constructor
  · show (writeByte (setSp (s.cpu.sp - 1) s) (s.cpu.sp - 1) (hiByte v) >>= fun s1 =>
      writeByte (setSp (s1.cpu.sp - 1) s1) (s1.cpu.sp - 1) (loByte v)) = .ok s2
    rw [show setSp (s.cpu.sp - 1) s = { s with cpu := { s.cpu with sp := s.cpu.sp - 1 } } from rfl, h1, bind_ok, e]
    exact h2
  · rw [c2]
    show { s1.cpu with sp := s.cpu.sp - 2 } = _
    rw [c1]

/-- A pop reads two bytes and moves `SP` (R13). -/
theorem pop16_ok {lo hi : Byte} {s : State} (h1 : readByte s s.cpu.sp = .ok lo) (h2 : readByte s (s.cpu.sp + 1) = .ok hi) :
    pop16 s = .ok (word hi lo, setSp (s.cpu.sp + 2) s) := by
  unfold pop16
  rw [h1, bind_ok, h2, bind_ok]

/-- The byte of an addition or subtraction as an integer. -/
theorem ofInt8_toNat (x : Int) : ((BitVec.ofInt 8 x).toNat : Int) = x % 256 := by
  rw [BitVec.toNat_ofInt, Int.toNat_of_nonneg (Int.emod_nonneg _ (by decide))]; rfl

theorem ofInt16_toNat (x : Int) : ((BitVec.ofInt 16 x).toNat : Int) = x % 65536 := by
  rw [BitVec.toNat_ofInt, Int.toNat_of_nonneg (Int.emod_nonneg _ (by decide))]; rfl

/-- `sext_8` by its two cases (R12). -/
theorem toInt_byte (e : Byte) : e.toInt = if e.toNat < 128 then (e.toNat : Int) else (e.toNat : Int) - 256 := by
  rw [BitVec.toInt_eq_toNat_cond]
  have := e.isLt
  split <;> split <;> omega

/-- A byte is 0 exactly when its value is. -/
theorem beq_zero_iff (r : Byte) : (r == 0) = decide (r.toNat = 0) := by
  rw [Bool.eq_iff_iff, beq_iff_eq, decide_eq_true_eq]
  constructor
  · rintro rfl; rfl
  · intro h; exact BitVec.eq_of_toNat_eq h

end Sys2Proof.Machine
end

