-- ==== Sys2Proof/Laws/Bus.lean ====
section
/-! SUPPORT. When a bus access completes, and the induction over everything a bus write can do. -/

namespace Sys2Proof.Machine

/-- An address without a device (R95): the row "nothing" of R72, or an I/O address without a register. -/
def noDevice (s : State) (a : Word) : Bool :=
  match region a with
  | .nothing => true
  | .io n => (ioReg s.cart.colorMode n).isNone
  | _ => false

/-- The fault of a bus access that starts in `s`: an address without a device, under the policy `fault` (R95). -/
def BusFault (s : State) (e : Fault) : Prop :=
  ∃ a, e = .busGap a ∧ noDevice s a = true ∧ s.params.unmapped = .fault

/-- What counts for a bus fault is the mode and the policy, which no access changes. -/
theorem BusFault.of_same {s t : State} {e : Fault} (hc : t.cart = s.cart) (hp : t.params = s.params)
    (h : BusFault t e) : BusFault s e := by
  obtain ⟨a, h1, h2, h3⟩ := h
  refine ⟨a, h1, ?_, hp ▸ h3⟩
  unfold noDevice at *
  rwa [hc] at h2

/-- A read fails only where nothing is mapped, under the policy `fault` (R95). -/
theorem readWith_error {g : Bool} {s : State} {a : Word} {e : Fault} (h : readWith g s a = .error e) :
    e = .busGap a ∧ noDevice s a = true ∧ s.params.unmapped = .fault := by
  have u : readUnmapped s a = .error e → e = .busGap a ∧ s.params.unmapped = .fault := by
    intro h
    unfold readUnmapped at h
    split at h
    · cases h
    · cases h; exact ⟨rfl, ‹_›⟩
  unfold readWith at h
  unfold noDevice
  cases hr : region a <;> rw [hr] at h <;> simp only [] at h ⊢
  case nothing => exact ⟨(u h).1, trivial, (u h).2⟩
  case io n =>
    cases hg : ioReg s.cart.colorMode n with
    | none => rw [hg] at h; exact ⟨(u h).1, rfl, (u h).2⟩
    | some r => rw [hg] at h; cases h
  all_goals cases h

theorem readWith_busFault {g : Bool} {s : State} {a : Word} {e : Fault} (h : readWith g s a = .error e) :
    BusFault s e := ⟨a, readWith_error h⟩

/-- Under `ff_ignore` every read completes. -/
theorem readWith_ok (g : Bool) {s : State} (h : s.params.unmapped = .ffIgnore) (a : Word) :
    ∃ b, readWith g s a = .ok b := by
  cases hr : readWith g s a with
  | ok b => exact ⟨b, rfl⟩
  | error e => have := (readWith_error hr).2.2; rw [h] at this; cases this

theorem oamCopy_error {src : Word} {n i : Nat} {s : State} {e : Fault} (h : oamCopy src i n s = .error e) :
    BusFault s e := by
  induction n generalizing i s with
  | zero => cases h
  | succ n ih =>
    unfold oamCopy at h
    cases hr : readWith false s (src + BitVec.ofNat 16 i) with
    | error e' => rw [hr] at h; cases h; exact readWith_busFault hr
    | ok b =>
      rw [hr, bind_ok] at h
      exact (ih h).of_same rfl rfl

theorem hdmaCopy_error {n : Nat} {s : State} {e : Fault} (h : hdmaCopy n s = .error e) : BusFault s e := by
  induction n generalizing s with
  | zero => cases h
  | succ n ih =>
    unfold hdmaCopy at h
    cases hr : readWith false s s.bus.hdmaSrc with
    | error e' => rw [hr] at h; cases h; exact readWith_busFault hr
    | ok b =>
      rw [hr, bind_ok] at h
      exact (ih h).of_same rfl rfl

theorem hdmaBlock_error {s : State} {e : Fault} (h : hdmaBlock s = .error e) : BusFault s e := by
  unfold hdmaBlock at h
  cases hr : hdmaCopy 16 s with
  | error e' => rw [hr] at h; cases h; exact hdmaCopy_error hr
  | ok t => rw [hr] at h; cases h

/-- A write fails only where some address reached has nothing mapped, under the policy `fault`. -/
theorem writeByte_error {s : State} {a : Word} {v : Byte} {e : Fault} (h : writeByte s a v = .error e) :
    BusFault s e := by
  have u : noDevice s a = true → writeUnmapped s a = .error e → BusFault s e := by
    intro hd h
    unfold writeUnmapped at h
    split at h
    · cases h
    · cases h; exact ⟨a, rfl, hd, ‹_›⟩
  unfold noDevice at u
  unfold writeByte at h
  cases hr : region a <;> rw [hr] at h u <;> simp only [] at h u
  case nothing => exact u trivial h
  case io n =>
    cases hg : ioReg s.cart.colorMode n with
    | none => rw [hg] at h u; exact u rfl h
    | some r =>
      rw [hg] at h
      simp only [] at h
      unfold writeIo at h
      split at h
      · unfold writeDma at h
        split at h
        · exact (oamCopy_error h).of_same rfl rfl
        · cases h
      · split at h
        · unfold writeHdma5 at h
          split at h
          · cases hr : hdmaCopy (16 * (v.toNat % 128 + 1)) (renderSoFar s) with
            | error e' =>
              rw [hr] at h; cases h
              exact (hdmaCopy_error hr).of_same (renderSoFar_cart s) (renderSoFar_params s)
            | ok t => rw [hr] at h; cases h
          all_goals cases h
        · cases h
  all_goals cases h

/-- Under `ff_ignore` every write completes. -/
theorem writeByte_ok {s : State} (h : s.params.unmapped = .ffIgnore) (a : Word) (v : Byte) :
    ∃ t, writeByte s a v = .ok t := by
  cases hr : writeByte s a v with
  | ok t => exact ⟨t, rfl⟩
  | error e => obtain ⟨_, _, _, this⟩ := writeByte_error hr; rw [h] at this; cases this

/-- The control state of two processors is the same. -/
structure SameControl (p q : Cpu) : Prop where
  ime : q.ime = p.ime
  pending : q.imePending = p.imePending
  run : q.runState = p.runState
  halt : q.haltRepeat = p.haltRepeat
  speed : q.speedShift = p.speedShift

/-- What an instruction other than the five that control the processor can do to a state: change registers, flags, `SP`
and `PC`, and write bytes through the bus. -/
structure KeptByPlain (P : State → Prop) : Prop where
  regs : ∀ (s : State) (c : Cpu), SameControl s.cpu c → P s → P { s with cpu := c }
  write : ∀ (s t : State) (a : Word) (v : Byte), writeByte s a v = .ok t → P s → P t

/-- What any instruction can do: the above, change the control state, or (`STOP`, in color mode) take the speed switch. A
property that these keep is kept by every instruction. -/
structure KeptByExec (P : State → Prop) : Prop where
  cpu : ∀ (s : State) (c : Cpu), P s → P { s with cpu := c }
  write : ∀ (s t : State) (a : Word) (v : Byte), writeByte s a v = .ok t → P s → P t
  speed : ∀ s : State, P s → s.cart.colorMode = true → P { s with key1Armed := false }

theorem KeptByExec.plain {P : State → Prop} (k : KeptByExec P) : KeptByPlain P :=
  ⟨fun s c _ h => k.cpu s c h, k.write⟩

/-- The five instructions that control the processor (R309, R321 to R324). -/
def isControl : Form → Bool
  | .reti | .halt | .stop _ | .di | .ei => true
  | _ => false

theorem kept_onCondition {P : State → Prop} {cc : Cond} {f : State → Except Fault State} {s t : State}
    (hf : ∀ t, f s = .ok t → P s → P t) (h : onCondition cc f s = .ok t) (hp : P s) : P t := by
  unfold onCondition at h
  split at h
  · exact hf t h hp
  · cases h; exact hp

section
variable {P : State → Prop} (k : KeptByPlain P)
include k

theorem kept_setReg (r : Reg8) (v : Byte) (s : State) (h : P s) : P (setReg r v s) := by
  cases r <;> exact k.regs s _ ⟨rfl, rfl, rfl, rfl, rfl⟩ h

theorem kept_push16 {v : Word} {s t : State} (h : push16 v s = .ok t) (hp : P s) : P t := by
  obtain ⟨s1, h1, h2⟩ := bind_eq_ok.mp h
  exact k.write _ _ _ _ h2 (k.regs _ _ ⟨rfl, rfl, rfl, rfl, rfl⟩ (k.write _ _ _ _ h1 (k.regs _ _ ⟨rfl, rfl, rfl, rfl, rfl⟩ hp)))

theorem kept_pop16 {v : Word} {s t : State} (h : pop16 s = .ok (v, t)) (hp : P s) : P t := by
  obtain ⟨lo, _, h⟩ := bind_eq_ok.mp h
  obtain ⟨hi, _, h⟩ := bind_eq_ok.mp h
  cases h
  exact k.regs _ _ ⟨rfl, rfl, rfl, rfl, rfl⟩ hp

theorem kept_loadFrom {r : Reg8} {a : Word} {s t : State} (h : loadFrom r a s = .ok t) (hp : P s) : P t := by
  obtain ⟨v, _, h⟩ := bind_eq_ok.mp h
  cases h
  exact kept_setReg k _ _ _ hp

theorem kept_setPair (r : Reg16) (v : Word) (s : State) (hp : P s) : P (setPair r v s) := by
  cases r <;> exact k.regs s _ ⟨rfl, rfl, rfl, rfl, rfl⟩ hp

theorem kept_setStackPair (r : StackPair) (v : Word) (s : State) (hp : P s) : P (setStackPair r v s) := by
  cases r <;> exact k.regs s _ ⟨rfl, rfl, rfl, rfl, rfl⟩ hp

theorem kept_setFlags (f : Flags) (s : State) (hp : P s) : P (setFlags f s) := k.regs s _ ⟨rfl, rfl, rfl, rfl, rfl⟩ hp

theorem kept_modifyAtHl {f : Byte → Byte × Flags} {s t : State} (h : modifyAtHl f s = .ok t) (hp : P s) : P t := by
  obtain ⟨v, _, h⟩ := bind_eq_ok.mp h
  obtain ⟨s1, h1, h⟩ := bind_eq_ok.mp h
  cases h
  exact k.regs _ _ ⟨rfl, rfl, rfl, rfl, rfl⟩ (k.write _ _ _ _ h1 hp)

theorem kept_rewriteAtHl {f : Byte → Byte} {s t : State} (h : rewriteAtHl f s = .ok t) (hp : P s) : P t := by
  obtain ⟨v, _, h⟩ := bind_eq_ok.mp h
  exact k.write _ _ _ _ h hp

theorem kept_call {a : Word} {s t : State} (h : call a s = .ok t) (hp : P s) : P t := by
  obtain ⟨s1, h1, h⟩ := bind_eq_ok.mp h
  cases h
  exact k.regs _ _ ⟨rfl, rfl, rfl, rfl, rfl⟩ (kept_push16 k h1 hp)

theorem kept_ret {s t : State} (h : ret s = .ok t) (hp : P s) : P t := by
  obtain ⟨⟨v, s1⟩, h1, h⟩ := bind_eq_ok.mp h
  cases h
  exact k.regs _ _ ⟨rfl, rfl, rfl, rfl, rfl⟩ (kept_pop16 k h1 hp)

/-- The rows of the second-byte map, the prefix row among them. -/
theorem kept_second {op2 : Byte} {s t : State} (h : runSecond op2 s = .ok t) (hp : P s) : P t := by
  unfold runSecond at h
  split at h
  · cases h; exact kept_setFlags k _ _ (kept_setReg k _ _ _ hp)
  · exact kept_modifyAtHl k h hp
  · cases h; exact kept_setFlags k _ _ hp
  · obtain ⟨v, _, h⟩ := bind_eq_ok.mp h
    cases h; exact kept_setFlags k _ _ hp
  · cases h; exact kept_setReg k _ _ _ hp
  · exact kept_rewriteAtHl k h hp
  · cases h; exact kept_setReg k _ _ _ hp
  · exact kept_rewriteAtHl k h hp

/-- Every plain form keeps what the plain changes keep. -/
theorem kept_plainForm {f : Form} {s t : State} (hf : isControl f = false) (h : runForm f s = .ok t) (hp : P s) : P t := by
  cases f <;> simp only [runForm] at h
  case reti => cases hf
  case halt => cases hf
  case stop => cases hf
  case di => cases hf
  case ei => cases hf
  case ldReg => cases h; exact kept_setReg k _ _ _ hp
  case ldImm => cases h; exact kept_setReg k _ _ _ hp
  case ldFromHl => exact kept_loadFrom k h hp
  case ldToHl => exact k.write _ _ _ _ h hp
  case ldToHlImm => exact k.write _ _ _ _ h hp
  case ldAFromBc => exact kept_loadFrom k h hp
  case ldAFromDe => exact kept_loadFrom k h hp
  case ldToBcA => exact k.write _ _ _ _ h hp
  case ldToDeA => exact k.write _ _ _ _ h hp
  case ldAFromAbs => exact kept_loadFrom k h hp
  case ldToAbsA => exact k.write _ _ _ _ h hp
  case ldhAFromImm => exact kept_loadFrom k h hp
  case ldhToImmA => exact k.write _ _ _ _ h hp
  case ldhAFromC => exact kept_loadFrom k h hp
  case ldhToCA => exact k.write _ _ _ _ h hp
  case ldToHlIncA =>
    obtain ⟨s1, h1, h⟩ := bind_eq_ok.mp h
    cases h; exact k.regs _ _ ⟨rfl, rfl, rfl, rfl, rfl⟩ (k.write _ _ _ _ h1 hp)
  case ldToHlDecA =>
    obtain ⟨s1, h1, h⟩ := bind_eq_ok.mp h
    cases h; exact k.regs _ _ ⟨rfl, rfl, rfl, rfl, rfl⟩ (k.write _ _ _ _ h1 hp)
  case ldAFromHlInc =>
    obtain ⟨v, _, h⟩ := bind_eq_ok.mp h
    cases h; exact k.regs _ _ ⟨rfl, rfl, rfl, rfl, rfl⟩ (kept_setReg k _ _ _ hp)
  case ldAFromHlDec =>
    obtain ⟨v, _, h⟩ := bind_eq_ok.mp h
    cases h; exact k.regs _ _ ⟨rfl, rfl, rfl, rfl, rfl⟩ (kept_setReg k _ _ _ hp)
  case ldPair => cases h; exact kept_setPair k _ _ _ hp
  case ldToAbsSp =>
    obtain ⟨s1, h1, h⟩ := bind_eq_ok.mp h
    exact k.write _ _ _ _ h (k.write _ _ _ _ h1 hp)
  case ldSpHl => cases h; exact k.regs _ _ ⟨rfl, rfl, rfl, rfl, rfl⟩ hp
  case ldHlSp => cases h; exact kept_setFlags k _ _ (k.regs _ _ ⟨rfl, rfl, rfl, rfl, rfl⟩ hp)
  case push => exact kept_push16 k h hp
  case pushAf => exact kept_push16 k h hp
  case pop =>
    obtain ⟨⟨v, s1⟩, h1, h⟩ := bind_eq_ok.mp h
    cases h; exact kept_setStackPair k _ _ _ (kept_pop16 k h1 hp)
  case popAf =>
    obtain ⟨⟨v, s1⟩, h1, h⟩ := bind_eq_ok.mp h
    cases h; exact kept_setFlags k _ _ (k.regs _ _ ⟨rfl, rfl, rfl, rfl, rfl⟩ (kept_pop16 k h1 hp))
  case alu => cases h; exact kept_setFlags k _ _ (kept_setReg k _ _ _ hp)
  case aluImm => cases h; exact kept_setFlags k _ _ (kept_setReg k _ _ _ hp)
  case aluAtHl =>
    obtain ⟨v, _, h⟩ := bind_eq_ok.mp h
    cases h; exact kept_setFlags k _ _ (kept_setReg k _ _ _ hp)
  case incReg => cases h; exact kept_setFlags k _ _ (kept_setReg k _ _ _ hp)
  case decReg => cases h; exact kept_setFlags k _ _ (kept_setReg k _ _ _ hp)
  case incAtHl => exact kept_modifyAtHl k h hp
  case decAtHl => exact kept_modifyAtHl k h hp
  case daa => cases h; exact kept_setFlags k _ _ (kept_setReg k _ _ _ hp)
  case cpl => cases h; exact kept_setFlags k _ _ (kept_setReg k _ _ _ hp)
  case scf => cases h; exact kept_setFlags k _ _ hp
  case ccf => cases h; exact kept_setFlags k _ _ hp
  case addHl => cases h; exact kept_setFlags k _ _ (k.regs _ _ ⟨rfl, rfl, rfl, rfl, rfl⟩ hp)
  case incPair => cases h; exact kept_setPair k _ _ _ hp
  case decPair => cases h; exact kept_setPair k _ _ _ hp
  case addSp => cases h; exact kept_setFlags k _ _ (k.regs _ _ ⟨rfl, rfl, rfl, rfl, rfl⟩ hp)
  case rlca => cases h; exact kept_setFlags k _ _ (kept_setReg k _ _ _ hp)
  case rrca => cases h; exact kept_setFlags k _ _ (kept_setReg k _ _ _ hp)
  case rla => cases h; exact kept_setFlags k _ _ (kept_setReg k _ _ _ hp)
  case rra => cases h; exact kept_setFlags k _ _ (kept_setReg k _ _ _ hp)
  case rot => cases h; exact kept_setFlags k _ _ (kept_setReg k _ _ _ hp)
  case rotAtHl => exact kept_modifyAtHl k h hp
  case bit => cases h; exact kept_setFlags k _ _ hp
  case bitAtHl =>
    obtain ⟨v, _, h⟩ := bind_eq_ok.mp h
    cases h; exact kept_setFlags k _ _ hp
  case res => cases h; exact kept_setReg k _ _ _ hp
  case resAtHl => exact kept_rewriteAtHl k h hp
  case set => cases h; exact kept_setReg k _ _ _ hp
  case setAtHl => exact kept_rewriteAtHl k h hp
  case jp => cases h; exact k.regs _ _ ⟨rfl, rfl, rfl, rfl, rfl⟩ hp
  case jpIf => exact kept_onCondition (fun t h hp => by cases h; exact k.regs _ _ ⟨rfl, rfl, rfl, rfl, rfl⟩ hp) h hp
  case jpHl => cases h; exact k.regs _ _ ⟨rfl, rfl, rfl, rfl, rfl⟩ hp
  case jr => cases h; exact k.regs _ _ ⟨rfl, rfl, rfl, rfl, rfl⟩ hp
  case jrIf => exact kept_onCondition (fun t h hp => by cases h; exact k.regs _ _ ⟨rfl, rfl, rfl, rfl, rfl⟩ hp) h hp
  case call => exact kept_call k h hp
  case callIf => exact kept_onCondition (fun t h hp => kept_call k h hp) h hp
  case ret => exact kept_ret k h hp
  case retIf => exact kept_onCondition (fun t h hp => kept_ret k h hp) h hp
  case rst => exact kept_call k h hp
  case nop => cases h; exact hp
  case prefixCb => exact kept_second k h hp
  case illegal =>
    unfold illegal at h
    split at h
    cases h

end

theorem kept_enableLater {P : State → Prop} (k : KeptByExec P) (s : State) (hp : P s) : P (enableLater s) := by
  unfold enableLater
  split
  · exact k.cpu _ _ hp
  · exact hp

/-- Every form keeps what the changes of `KeptByExec` keep. -/
theorem kept_runForm {P : State → Prop} (k : KeptByExec P) {f : Form} {s t : State} (h : runForm f s = .ok t) (hp : P s) :
    P t := by
  cases hf : isControl f with
  | false => exact kept_plainForm k.plain hf h hp
  | true =>
    cases f <;> simp [isControl] at hf
    case reti =>
      obtain ⟨⟨v, s1⟩, h1, h⟩ := bind_eq_ok.mp h
      cases h
      have hs := k.cpu _ { s1.cpu with pc := v } (kept_pop16 k.plain h1 hp)
      split
      · exact kept_enableLater k _ hs
      · exact k.cpu _ _ hs
    case halt =>
      cases h
      split
      · exact k.cpu _ _ hp
      · split
        · exact k.cpu _ _ hp
        · exact hp
    case stop =>
      simp only [runForm, stop] at h
      split at h
      · cases h
      · split at h
        · cases h
          rename_i hc
          simp only [Bool.and_eq_true] at hc
          exact k.cpu _ _ (k.speed _ hp hc.1)
        · cases h; exact k.cpu _ _ hp
    case di => cases h; exact k.cpu _ _ hp
    case ei => cases h; exact kept_enableLater k _ hp

/-- Every instruction keeps what the changes of `KeptByExec` keep. -/
theorem kept_exec {P : State → Prop} (k : KeptByExec P) {i : Instr} {s t : State} (h : exec i s = .next t) (hp : P s) :
    P t := by
  rw [exec_eq_run, ofExcept_next] at h
  exact kept_runForm k h hp

/-- The bind of two operations fails exactly when one does. -/
theorem bind_eq_error {α β : Type} {x : Except Fault α} {f : α → Except Fault β} {e : Fault} :
    (x >>= f) = .error e ↔ x = .error e ∨ ∃ a, x = .ok a ∧ f a = .error e := by
  cases x with
  | error e' =>
    constructor
    · intro h; cases h; exact .inl rfl
    · rintro (h | ⟨a, h, -⟩) <;> cases h; rfl
  | ok a =>
    constructor
    · exact fun h => .inr ⟨a, rfl, h⟩
    · rintro (h | ⟨a', h, h'⟩)
      · cases h
      · cases h; exact h'

theorem readByte_busFault {s : State} {a : Word} {e : Fault} (h : readByte s a = .error e) : BusFault s e :=
  readWith_busFault h

theorem push16_busFault {v : Word} {s : State} {e : Fault} (h : push16 v s = .error e) : BusFault s e := by
  rcases bind_eq_error.mp h with h | ⟨s1, h1, h⟩
  · exact (writeByte_error h).of_same rfl rfl
  · have hc := writeByte_cart h1
    have hp := writeByte_params h1
    exact (writeByte_error h).of_same hc hp

theorem pop16_busFault {s : State} {e : Fault} (h : pop16 s = .error e) : BusFault s e := by
  rcases bind_eq_error.mp h with h | ⟨lo, _, h⟩
  · exact readByte_busFault h
  · rcases bind_eq_error.mp h with h | ⟨hi, _, h⟩
    · exact readByte_busFault h
    · cases h

theorem loadFrom_busFault {r : Reg8} {a : Word} {s : State} {e : Fault} (h : loadFrom r a s = .error e) : BusFault s e := by
  rcases bind_eq_error.mp h with h | ⟨v, _, h⟩
  · exact readByte_busFault h
  · cases h

theorem modifyAtHl_busFault {f : Byte → Byte × Flags} {s : State} {e : Fault} (h : modifyAtHl f s = .error e) :
    BusFault s e := by
  rcases bind_eq_error.mp h with h | ⟨v, _, h⟩
  · exact readByte_busFault h
  · rcases bind_eq_error.mp h with h | ⟨t, _, h⟩
    · exact writeByte_error h
    · cases h

theorem rewriteAtHl_busFault {f : Byte → Byte} {s : State} {e : Fault} (h : rewriteAtHl f s = .error e) :
    BusFault s e := by
  rcases bind_eq_error.mp h with h | ⟨v, _, h⟩
  · exact readByte_busFault h
  · exact writeByte_error h

theorem call_busFault {a : Word} {s : State} {e : Fault} (h : call a s = .error e) : BusFault s e := by
  rcases bind_eq_error.mp h with h | ⟨v, _, h⟩
  · exact push16_busFault h
  · cases h

theorem onCondition_busFault {cc : Cond} {f : State → Except Fault State} {s : State} {e : Fault}
    (hf : f s = .error e → BusFault s e) (h : onCondition cc f s = .error e) : BusFault s e := by
  unfold onCondition at h
  split at h
  · exact hf h
  · cases h

/-- An operation that reads the byte at `HL` and then cannot fail. -/
theorem readThen_busFault {a : Word} {f : Byte → Except Fault State} {s : State} {e : Fault}
    (hf : ∀ v, ∃ t, f v = .ok t) (h : (readByte s a >>= f) = .error e) : BusFault s e := by
  rcases bind_eq_error.mp h with h | ⟨v, _, h⟩
  · exact readByte_busFault h
  · obtain ⟨t, ht⟩ := hf v
    rw [ht] at h; cases h

theorem popThen_busFault {f : Word × State → Except Fault State} {s : State} {e : Fault}
    (hf : ∀ v, ∃ t, f v = .ok t) (h : (pop16 s >>= f) = .error e) : BusFault s e := by
  rcases bind_eq_error.mp h with h | ⟨v, _, h⟩
  · exact pop16_busFault h
  · obtain ⟨t, ht⟩ := hf v
    rw [ht] at h; cases h

theorem second_busFault {op2 : Byte} {s : State} {e : Fault} (h : runSecond op2 s = .error e) : BusFault s e := by
  unfold runSecond at h
  split at h
  · cases h
  · exact modifyAtHl_busFault h
  · cases h
  · exact readThen_busFault (fun v => ⟨_, rfl⟩) h
  · cases h
  · exact rewriteAtHl_busFault h
  · cases h
  · exact rewriteAtHl_busFault h

/-- Why a form fails: it is an illegal row, a reserved `STOP`, or a bus access failed. -/
theorem runForm_error {f : Form} {s : State} {e : Fault} (h : runForm f s = .error e) :
    (∃ b, f = .illegal b ∧ e = .illegalOpcode (illegalByte b)) ∨
    (∃ x, f = .stop x ∧ x ≠ 0 ∧ e = .reservedStopOperand x) ∨ BusFault s e := by
  cases f <;> simp only [runForm] at h
  case illegal b =>
    unfold illegal at h
    split at h
    cases h
    exact .inl ⟨b, rfl, rfl⟩
  case stop x =>
    unfold stop at h
    split at h
    · cases h
      exact .inr (.inl ⟨x, rfl, ‹_›, rfl⟩)
    · split at h <;> cases h
  all_goals refine .inr (.inr ?_)
  all_goals try cases h
  all_goals first
    | exact loadFrom_busFault h
    | exact writeByte_error h
    | exact push16_busFault h
    | exact modifyAtHl_busFault h
    | exact rewriteAtHl_busFault h
    | exact call_busFault h
    | exact second_busFault h
    | exact readThen_busFault (fun v => ⟨_, rfl⟩) h
    | exact popThen_busFault (fun v => ⟨_, rfl⟩) h
    | exact onCondition_busFault call_busFault h
    | exact onCondition_busFault (popThen_busFault (fun v => ⟨_, rfl⟩)) h
    | exact onCondition_busFault (fun h => by cases h) h
    | skip
  all_goals rcases bind_eq_error.mp h with h | ⟨t, h1, h⟩
  all_goals first | exact writeByte_error h | cases h | skip
  exact (writeByte_error h).of_same (writeByte_cart h1) (writeByte_params h1)

end Sys2Proof.Machine
end

