-- ==== Sys2Proof/Laws/Memory.lean ====
section
/-! SUPPORT. The laws of a byte store: read after write, other addresses, and the canonical form, which every
operation keeps and in which equal contents are equal data. -/

namespace Sys2Proof.Machine

/-- No cell of a store in canonical form from `lo` on lies below `lo`. -/
theorem Memory.read_below {m : Memory} {lo a : Nat} (h : m.wfFrom lo = true) (ha : a < lo) :
    m.read a = Memory.unlisted := by
  induction m generalizing lo with
  | nil => rfl
  | cons c m ih =>
    obtain ⟨k, v⟩ := c
    simp only [Memory.wfFrom, Bool.and_eq_true, decide_eq_true_eq] at h
    have hk : k ≠ a := by omega
    simp only [Memory.read, hk, if_false]
    exact ih h.2 (by omega)

theorem Memory.wfFrom_mono {m : Memory} {lo lo' : Nat} (h : m.wfFrom lo = true) (hl : lo' ≤ lo) :
    m.wfFrom lo' = true := by
  cases m with
  | nil => rfl
  | cons c m =>
    obtain ⟨k, v⟩ := c
    simp only [Memory.wfFrom, Bool.and_eq_true, decide_eq_true_eq] at h ⊢
    exact ⟨⟨by omega, h.1.2⟩, h.2⟩

/-- A write keeps the canonical form from `lo` on, at addresses from `lo` on. -/
theorem Memory.wfFrom_write {m : Memory} {lo a : Nat} (v : Byte) (h : m.wfFrom lo = true) (ha : lo ≤ a) :
    (m.write a v).wfFrom lo = true := by
  induction m generalizing lo with
  | nil =>
    by_cases hv : v = Memory.unlisted <;> simp [Memory.write, Memory.wfFrom, hv, ha]
  | cons c m ih =>
    obtain ⟨k, w⟩ := c
    simp only [Memory.wfFrom, Bool.and_eq_true, decide_eq_true_eq] at h
    by_cases hk : k < a
    · simp only [Memory.write, hk, if_true, Memory.wfFrom, Bool.and_eq_true, decide_eq_true_eq]
      exact ⟨h.1, ih h.2 (by omega)⟩
    · by_cases he : k = a
      · subst he
        by_cases hv : v = Memory.unlisted
        · simp only [Memory.write, Nat.lt_irrefl, if_false, if_true, hv]
          exact Memory.wfFrom_mono h.2 (by omega)
        · simp [Memory.write, hv, Memory.wfFrom, ha, h.2]
      · by_cases hv : v = Memory.unlisted
        · simp [Memory.write, hk, he, hv, Memory.wfFrom, h.2]
          exact ⟨h.1.1, by simpa using h.1.2⟩
        · simp [Memory.write, hk, he, hv, Memory.wfFrom, h.2, ha]
          exact ⟨by omega, by simpa using h.1.2⟩

/-- Every write keeps the canonical form. -/
theorem Memory.wf_write {m : Memory} (a : Nat) (v : Byte) (h : m.wf = true) : (m.write a v).wf = true :=
  Memory.wfFrom_write v h (Nat.zero_le a)

/-- A read after a write to the same address gives the value written. -/
theorem Memory.read_write_same_from {m : Memory} {lo : Nat} (a : Nat) (v : Byte) (h : m.wfFrom lo = true) :
    (m.write a v).read a = v := by
  induction m generalizing lo with
  | nil => by_cases hv : v = Memory.unlisted <;> simp [Memory.write, Memory.read, hv]
  | cons c m ih =>
    obtain ⟨k, w⟩ := c
    simp only [Memory.wfFrom, Bool.and_eq_true, decide_eq_true_eq] at h
    by_cases hk : k < a
    · have hne : k ≠ a := by omega
      simp only [Memory.write, hk, if_true, Memory.read, hne, if_false]
      exact ih h.2
    · by_cases he : k = a
      · subst he
        by_cases hv : v = Memory.unlisted
        · simp only [Memory.write, Nat.lt_irrefl, if_false, if_true, hv]
          exact Memory.read_below h.2 (by omega)
        · simp [Memory.write, hv, Memory.read]
      · by_cases hv : v = Memory.unlisted
        · simp only [Memory.write, hk, if_false, he, hv, if_true, Memory.read]
          exact Memory.read_below h.2 (by omega)
        · simp [Memory.write, hk, he, hv, Memory.read]

theorem Memory.read_write_same {m : Memory} (a : Nat) (v : Byte) (h : m.wf = true) : (m.write a v).read a = v :=
  Memory.read_write_same_from a v h

/-- A write leaves every other address alone, in any store. -/
theorem Memory.read_write_other {m : Memory} {a b : Nat} (v : Byte) (hne : b ≠ a) :
    (m.write a v).read b = m.read b := by
  induction m with
  | nil =>
    by_cases hv : v = Memory.unlisted
    · simp [Memory.write, hv]
    · simp [Memory.write, hv, Memory.read, Ne.symm hne]
  | cons c m ih =>
    obtain ⟨k, w⟩ := c
    by_cases hk : k < a
    · simp only [Memory.write, hk, if_true, Memory.read, ih]
    · by_cases he : k = a
      · subst he
        by_cases hv : v = Memory.unlisted
        · simp [Memory.write, hv, Memory.read, Ne.symm hne]
        · simp [Memory.write, hv, Memory.read, Ne.symm hne]
      · by_cases hv : v = Memory.unlisted
        · simp [Memory.write, hk, he, hv]
        · simp [Memory.write, hk, he, hv, Memory.read, Ne.symm hne]

/-- What a store reads after a write. -/
theorem Memory.read_write {m : Memory} (a b : Nat) (v : Byte) (h : m.wf = true) :
    (m.write a v).read b = if b = a then v else m.read b := by
  by_cases hb : b = a
  · subst hb; simp [Memory.read_write_same b v h]
  · simp [hb, Memory.read_write_other v hb]

theorem Memory.wf_storeFrom {m : Memory} (a : Nat) (bs : List Byte) (h : m.wf = true) :
    (m.storeFrom a bs).wf = true := by
  induction bs generalizing m a with
  | nil => exact h
  | cons b bs ih => exact ih (a + 1) (Memory.wf_write a b h)

theorem Memory.wf_ofBytes (bs : List Byte) : (Memory.ofBytes bs).wf = true := Memory.wf_storeFrom 0 bs rfl

/-- What a list of bytes stored from `a` on reads as. -/
theorem Memory.read_storeFrom {m : Memory} (a b : Nat) (bs : List Byte) (h : m.wf = true) :
    (m.storeFrom a bs).read b = if a ≤ b ∧ b < a + bs.length then bs.getD (b - a) 0 else m.read b := by
  induction bs generalizing m a with
  | nil =>
    simp [Memory.storeFrom]
  | cons c bs ih =>
    simp only [Memory.storeFrom, ih (a + 1) (Memory.wf_write a c h), Memory.read_write a b c h, List.length_cons]
    by_cases hb : b = a
    · subst hb
      simp
    · by_cases h1 : a + 1 ≤ b ∧ b < a + 1 + bs.length
      · have h2 : a ≤ b ∧ b < a + (bs.length + 1) := by omega
        simp only [h1, h2, and_self, if_true]
        obtain ⟨d, hd⟩ : ∃ d, b - a = d + 1 := ⟨b - a - 1, by omega⟩
        rw [hd, List.getD_cons_succ]
        congr 1
        omega
      · have h2 : ¬ (a ≤ b ∧ b < a + (bs.length + 1)) := by omega
        rw [if_neg h1, if_neg h2, if_neg hb]

/-- Two stores in canonical form with the same contents from `lo` on are the same data. -/
theorem Memory.ext_from {m n : Memory} {lo : Nat} (hm : m.wfFrom lo = true) (hn : n.wfFrom lo = true)
    (h : ∀ a, m.read a = n.read a) : m = n := by
  induction m generalizing n lo with
  | nil =>
    cases n with
    | nil => rfl
    | cons c n =>
      obtain ⟨k, v⟩ := c
      simp only [Memory.wfFrom, Bool.and_eq_true, bne_iff_ne] at hn
      have := h k
      simp only [Memory.read, if_true] at this
      exact absurd this.symm hn.1.2
  | cons c m ih =>
    obtain ⟨k, v⟩ := c
    cases n with
    | nil =>
      simp only [Memory.wfFrom, Bool.and_eq_true, bne_iff_ne] at hm
      have := h k
      simp only [Memory.read, if_true] at this
      exact absurd this hm.1.2
    | cons d n =>
      obtain ⟨l, w⟩ := d
      simp only [Memory.wfFrom, Bool.and_eq_true, bne_iff_ne] at hm hn
      have hkl : k = l := by
        rcases Nat.lt_trichotomy k l with hlt | heq | hgt
        · have h1 := h k
          have hne : l ≠ k := by omega
          simp only [Memory.read, if_true, hne, if_false] at h1
          rw [Memory.read_below hn.2 (by omega)] at h1
          exact absurd h1 hm.1.2
        · exact heq
        · have h1 := h l
          have hne : k ≠ l := by omega
          simp only [Memory.read, if_true, hne, if_false] at h1
          rw [Memory.read_below hm.2 (by omega)] at h1
          exact absurd h1.symm hn.1.2
      subst hkl
      have hv : v = w := by simpa [Memory.read] using h k
      subst hv
      have : m = n := by
        refine ih hm.2 hn.2 fun a => ?_
        by_cases ha : k = a
        · subst ha
          rw [Memory.read_below hm.2 (by omega), Memory.read_below hn.2 (by omega)]
        · simpa [Memory.read, ha] using h a
      rw [this]

/-- Equal contents are equal data. -/
theorem Memory.ext_read {m n : Memory} (hm : m.wf = true) (hn : n.wf = true) (h : ∀ a, m.read a = n.read a) : m = n :=
  Memory.ext_from hm hn h

end Sys2Proof.Machine
end

