-- ==== Sys2Proof/Laws/Step.lean ====
section
/-! SUPPORT. Everything a step can do, once: the four ways a step answers a next state, and the induction that
follows. -/

namespace Sys2Proof.Machine

theorem thenTick_next {n : Nat} {r : Result} {t : State} (h : thenTick n r = .next t) :
    ∃ u v, r = .next u ∧ tick n u = .ok v ∧ t = { v with clock := v.clock + n } := by
  cases r with
  | next u =>
    obtain ⟨v, hv, h'⟩ := bind_eq_ok.mp (ofExcept_next.mp h)
    cases h'
    exact ⟨u, v, rfl, hv, rfl⟩
  | fault f => cases h
  | refused q => cases h

/-- The four ways a step answers a next state (R341, R347, R350, R352). -/
theorem step_cases {s t : State} (h : step s = .next t) :
    s.fault = none ∧
    ((s.cpu.runState = .stopped ∧ t = s) ∨
    (s.cpu.runState ≠ .stopped ∧
      ((∃ n u v, dueInterrupt (updateIme s) = some n ∧ takeInterrupt n (updateIme s) = .ok u ∧ tick 20 u = .ok v ∧
        t = { v with clock := v.clock + 20 }) ∨
      (dueInterrupt (updateIme s) = none ∧ idling (updateIme s) = true ∧ ∃ v, tick 4 (updateIme s) = .ok v ∧
        t = { v with clock := v.clock + 4 }) ∨
      (dueInterrupt (updateIme s) = none ∧ idling (updateIme s) = false ∧ ∃ i s1 u v,
        fetchInstr (wake (updateIme s)) = .ok (i, s1) ∧ exec i s1 = .next u ∧ tick (cost i s1) u = .ok v ∧
        t = { v with clock := v.clock + cost i s1 })))) := by
  unfold step stepBody at h
  split at h
  · cases h
  refine ⟨‹_›, ?_⟩
  split at h
  · cases h; exact .inl ⟨‹_›, rfl⟩
  refine .inr ⟨‹_›, ?_⟩
  unfold awakeStep at h
  split at h
  · obtain ⟨u, v, hu, hv, ht⟩ := thenTick_next h
    exact .inl ⟨_, u, v, ‹_›, ofExcept_next.mp hu, hv, ht⟩
  split at h
  · obtain ⟨u, v, hu, hv, ht⟩ := thenTick_next h
    cases hu
    exact .inr (.inl ⟨‹_›, ‹_›, v, hv, ht⟩)
  · refine .inr (.inr ⟨‹_›, Bool.eq_false_of_not_eq_true ‹_›, ?_⟩)
    unfold instructionStep at h
    split at h
    · cases h
    · rename_i i s1 hf
      obtain ⟨u, v, hu, hv, ht⟩ := thenTick_next h
      exact ⟨i, s1, u, v, hf, hu, hv, ht⟩

/-- A machine that has no fault and is not stopped goes through the interrupt check. -/
theorem step_awake {s : State} (hf : s.fault = none) (hr : s.cpu.runState ≠ .stopped) :
    step s = awakeStep (updateIme s) := by
  unfold step stepBody
  rw [hf]
  exact if_neg hr

/-- With nothing due and the machine not idling, one instruction runs. -/
theorem awake_instruction {s : State} (hd : dueInterrupt s = none) (hi : idling s = false) :
    awakeStep s = instructionStep (wake s) := by
  unfold awakeStep
  rw [hd]
  exact if_neg (by rw [hi]; decide)

/-- A read depends on the processor only through the speed (`KEY1`). -/
theorem readWith_cpu {g : Bool} {s : State} {c : Cpu} (h : c.speedShift = s.cpu.speedShift) (a : Word) :
    readWith g { s with cpu := c } a = readWith g s a := by
  have k : ∀ r, readIo r { s with cpu := c } = readIo r s := by
    intro r
    cases r <;> first | rfl | (simp only [readIo, h])
  unfold readWith
  split <;> first | rfl | (simp only [k]; rfl)

@[simp] theorem readByte_setPc (v : Word) (s : State) (a : Word) : readByte (setPc v s) a = readByte s a :=
  readWith_cpu rfl a

@[simp] theorem readByte_setSp (v : Word) (s : State) (a : Word) : readByte (setSp v s) a = readByte s a :=
  readWith_cpu rfl a

theorem fetch8_ok {b : Byte} {s : State} (h : readByte s s.cpu.pc = .ok b) : fetch8 s = .ok (b, setPc (s.cpu.pc + 1) s) := by
  unfold fetch8
  rw [h]; rfl

theorem fetch8_state {b : Byte} {s t : State} (h : fetch8 s = .ok (b, t)) : t = setPc (s.cpu.pc + 1) s := by
  obtain ⟨v, _, h⟩ := bind_eq_ok.mp h
  cases h; rfl

theorem fetchOpcode_state {b : Byte} {s t : State} (h : fetchOpcode s = .ok (b, t)) : t = { s with cpu := t.cpu } := by
  unfold fetchOpcode at h
  split at h
  · obtain ⟨v, _, h⟩ := bind_eq_ok.mp h
    cases h; rfl
  · rw [fetch8_state h]; rfl

theorem fetchOperands_state {n : Nat} {bs : List Byte} {s t : State} (h : fetchOperands n s = .ok (bs, t)) :
    t = { s with cpu := t.cpu } := by
  induction n generalizing s bs with
  | zero => cases h; rfl
  | succ n ih =>
    obtain ⟨⟨b, s1⟩, h1, h⟩ := bind_eq_ok.mp h
    obtain ⟨⟨bs', s2⟩, h2, h⟩ := bind_eq_ok.mp h
    cases h
    have e := ih h2
    rw [fetch8_state h1] at e
    exact e

/-- Fetching an instruction changes the processor only. -/
theorem fetchInstr_state {i : Instr} {s t : State} (h : fetchInstr s = .ok (i, t)) : t = { s with cpu := t.cpu } := by
  obtain ⟨⟨op, s1⟩, h1, h⟩ := bind_eq_ok.mp h
  obtain ⟨⟨bs, s2⟩, h2, h⟩ := bind_eq_ok.mp h
  cases h
  have e1 := fetchOpcode_state h1
  have e2 := fetchOperands_state h2
  rw [e1] at e2
  exact e2

/-- The operand bytes after the opcode byte of `i`, fetched. -/
theorem fetchOperands_ok {s : State} {i : Instr} {op : Byte} {rest : List Byte} (hd : decode (op :: rest) = .ok (i, []))
    (hb : ∀ k, k < rest.length → readByte s (s.cpu.pc + BitVec.ofNat 16 k) = .ok (rest.getD k 0)) :
    ∃ bs, fetchOperands (Decode.operandCount op) s = .ok (bs, setPc (s.cpu.pc + BitVec.ofNat 16 rest.length) s) ∧
      instrOf op (bs.getD 0 0) (bs.getD 1 0) = i := by
  have h0 : ∀ b l, rest = b :: l → fetch8 s = .ok (b, setPc (s.cpu.pc + 1) s) := by
    intro b l e
    apply fetch8_ok
    have := hb 0 (by simp [e])
    simpa [e] using this
  have p2 : s.cpu.pc + 1 + 1 = s.cpu.pc + 2 := by bv_omega
  simp only [decode] at hd
  split at hd
  · rename_i hc
    cases hd
    refine ⟨[], ?_, rfl⟩
    rw [hc]
    have e : s.cpu.pc + BitVec.ofNat 16 ([] : List Byte).length = s.cpu.pc := by simp
    rw [e]; rfl
  · rename_i b1 _ hc
    cases hd
    refine ⟨[b1], ?_, rfl⟩
    rw [hc]
    simp only [fetchOperands, h0 _ _ rfl, bind_ok]
    rfl
  · rename_i b1 b2 _ hc
    cases hd
    have r2 : fetch8 (setPc (s.cpu.pc + 1) s) = .ok (b2, setPc (s.cpu.pc + 1 + 1) s) := by
      refine fetch8_ok ?_
      rw [readByte_setPc]
      exact hb 1 (by simp)
    refine ⟨[b1, b2], ?_, rfl⟩
    rw [hc]
    simp only [fetchOperands, h0 _ _ rfl, bind_ok, r2]
    rw [p2]; rfl
  · cases hd

/-- The bytes at the program counter that decode to `i` and nothing more are fetched as `i`, with the program counter
moved past them; with `halt_repeat` set, the first byte is read without moving it (R30, R341 items 4 and 5). -/
theorem fetchInstr_ok {s : State} {i : Instr} {l : List Byte} (hd : decode l = .ok (i, []))
    (hb : ∀ k, k < l.length →
      readByte s (s.cpu.pc + BitVec.ofNat 16 (k - s.cpu.haltRepeat.toNat)) = .ok (l.getD k 0)) :
    fetchInstr s = .ok (i, { s with cpu := { s.cpu with
      pc := s.cpu.pc + BitVec.ofNat 16 (l.length - s.cpu.haltRepeat.toNat), haltRepeat := false } }) := by
  cases l with
  | nil => cases hd
  | cons op rest =>
    have r0 : readByte s s.cpu.pc = .ok op := by
      have := hb 0 (by simp)
      simpa using this
    cases hr : s.cpu.haltRepeat with
    | false =>
      rw [hr] at hb
      obtain ⟨bs, h1, h2⟩ := fetchOperands_ok (s := setPc (s.cpu.pc + 1) s) hd (by
        intro k hk
        have := hb (k + 1) (by simpa using hk)
        rw [readByte_setPc]
        rw [show (setPc (s.cpu.pc + 1) s).cpu.pc + BitVec.ofNat 16 k = s.cpu.pc + BitVec.ofNat 16 (k + 1) by
          show s.cpu.pc + 1 + _ = _; bv_omega]
        exact this)
      unfold fetchInstr fetchOpcode
      rw [if_neg (by simp [hr]), fetch8_ok r0, bind_ok]
      simp only [h1, bind_ok, h2]
      have e : s.cpu.pc + 1 + BitVec.ofNat 16 rest.length = s.cpu.pc + BitVec.ofNat 16 (rest.length + 1) := by bv_omega
      show Except.ok (i, { s with cpu := { s.cpu with pc := s.cpu.pc + 1 + BitVec.ofNat 16 rest.length,
                                                      haltRepeat := s.cpu.haltRepeat } }) = _
      rw [e, hr]; rfl
    | true =>
      rw [hr] at hb
      obtain ⟨bs, h1, h2⟩ := fetchOperands_ok (s := { s with cpu := { s.cpu with haltRepeat := false } }) hd (by
        intro k hk
        have := hb (k + 1) (by simpa using hk)
        exact (readWith_cpu (c := { s.cpu with haltRepeat := false }) rfl _).trans this)
      unfold fetchInstr fetchOpcode
      rw [if_pos hr, r0]
      simp only [bind_ok, h1, h2]
      rfl

/-- Taking an interrupt keeps what processor changes, bus writes and changes of `IF` keep. -/
theorem kept_takeInterrupt {P : State → Prop} (k : KeptByExec P) (hi : ∀ (s : State) (f : BitVec 5), P s → P { s with ifReg := f })
    {n : Source} {s t : State} (h : takeInterrupt n s = .ok t) (hp : P s) : P t := by
  obtain ⟨s2, h2, h⟩ := bind_eq_ok.mp h
  cases h
  have hs := k.cpu _ { s.cpu with ime := false, haltRepeat := false,
                                  runState := if s.cpu.runState = .halted then .running else s.cpu.runState }
    (hi s (s.ifReg &&& ~~~n.mask) hp)
  exact k.cpu _ _ (kept_push16 k.plain h2 hs)

/-- A property that instructions, `IF`, `Tick` and the clock count keep is kept by every step. -/
theorem kept_step {P : State → Prop} (k : KeptByExec P) (hi : ∀ (s : State) (f : BitVec 5), P s → P { s with ifReg := f })
    (ht : ∀ (n : Nat) (s t : State), tick n s = .ok t → P s → P t)
    (hc : ∀ (s : State) (n : Nat), P s → P { s with clock := n })
    {s t : State} (h : step s = .next t) (hp : P s) : P t := by
  have hu : P (updateIme s) := k.cpu _ _ hp
  obtain ⟨_, ⟨_, rfl⟩ | ⟨_, ⟨n, u, v, _, h1, h2, rfl⟩ | ⟨_, _, v, h1, rfl⟩ | ⟨_, _, i, s1, u, v, h1, h2, h3, rfl⟩⟩⟩ :=
    step_cases h
  · exact hp
  · exact hc _ _ (ht _ _ _ h2 (kept_takeInterrupt k hi h1 hu))
  · exact hc _ _ (ht _ _ _ h1 hu)
  · have e := fetchInstr_state h1
    have hs : P s1 := by
      rw [e]
      exact k.cpu _ _ (k.cpu _ _ hu)
    exact hc _ _ (ht _ _ _ h3 (kept_exec k h2 hs))

end Sys2Proof.Machine
end

