-- ==== Sys2Proof/Laws/Ppu.lean ====
section
/-! SUPPORT. What each operation of the picture generator does to the picture generator, once; the invariants of the
scanline engine and of the screen that follow. -/

namespace Sys2Proof.Machine

@[simp] theorem length_mapFrom (f : Nat → LinePixel → LinePixel) (i : Nat) (es : List LinePixel) :
    (mapFrom f i es).length = es.length := by
  induction es generalizing i with
  | nil => rfl
  | cons e es ih => simp [mapFrom, ih]

/-- Rendering changes the line buffer and how far it is rendered (R420). -/
theorem renderUpTo_eq (p : Nat) (s : State) :
    ∃ lb rx, renderUpTo p s = setPpu { s.ppu with lineBuf := lb, renderedX := rx } s ∧
      lb.length = s.ppu.lineBuf.length ∧ rx ≤ max s.ppu.renderedX p := by
  unfold renderUpTo
  split
  · exact ⟨_, _, rfl, by simp, Nat.le_refl _⟩
  · exact ⟨s.ppu.lineBuf, s.ppu.renderedX, rfl, rfl, Nat.le_max_left _ _⟩

theorem renderSoFar_eq (s : State) :
    ∃ lb rx, renderSoFar s = setPpu { s.ppu with lineBuf := lb, renderedX := rx } s ∧
      lb.length = s.ppu.lineBuf.length ∧ rx ≤ max s.ppu.renderedX 160 := by
  obtain ⟨lb, rx, h, hl, hr⟩ := renderUpTo_eq (pixelsOutput s.ppu.lineCycle) s
  refine ⟨lb, rx, h, hl, ?_⟩
  have : pixelsOutput s.ppu.lineCycle ≤ 160 := Nat.min_le_left _ _
  omega

theorem compositeSprites_eq (s : State) :
    ∃ lb, compositeSprites s = setPpu { s.ppu with lineBuf := lb } s ∧ lb.length = s.ppu.lineBuf.length := by
  unfold compositeSprites
  split
  · exact ⟨_, rfl, by simp⟩
  · exact ⟨s.ppu.lineBuf, rfl, rfl⟩

/-- A frame of the screen's size (R401). -/
def FrameSize (f : List (List Pixel)) : Prop := f.length = 144 ∧ ∀ row ∈ f, row.length = 160

theorem frameSize_set {f : List (List Pixel)} (h : FrameSize f) (i : Nat) {row : List Pixel} (hr : row.length = 160) :
    FrameSize (f.set i row) := by
  refine ⟨by simpa using h.1, fun r hm => ?_⟩
  rcases List.mem_or_eq_of_mem_set hm with h' | rfl
  · exact h.2 r h'
  · exact hr

/-- Finishing a line changes the line buffer, how far it is rendered, and the frame's row (R406, R426, R431). -/
theorem finishLine_eq (s : State) :
    ∃ lb rx fr, finishLine s = setPpu { s.ppu with lineBuf := lb, renderedX := rx, frame := fr } s ∧
      lb.length = s.ppu.lineBuf.length ∧ rx ≤ max s.ppu.renderedX 160 ∧
      (s.ppu.lineBuf.length = 160 → FrameSize s.ppu.frame → FrameSize fr) := by
  obtain ⟨lb, rx, h1, hl, hr⟩ := renderUpTo_eq 160 s
  obtain ⟨lb', h2, hl'⟩ := compositeSprites_eq (renderUpTo 160 s)
  have e : (renderUpTo 160 s).ppu.lineBuf.length = s.ppu.lineBuf.length := by rw [h1]; exact hl
  refine ⟨lb', rx, s.ppu.frame.set s.ppu.line (lb'.map LinePixel.pixel), ?_, by rw [hl', e], hr, ?_⟩
  · unfold finishLine copyLine
    rw [h2, h1]; rfl
  · intro h160 hf
    exact frameSize_set hf _ (by rw [List.length_map, hl', e, h160])

/-! ### The scanline engine -/

/-- The part of `PpuInv` while the display is on, at a given line and cycle. -/
structure OnLineInv (zeroAt : Nat) (p : Ppu) : Prop where
  line : p.line ≤ 153
  cycle : p.lineCycle ≤ 455
  mode : p.mode = modeAt p
  ly : p.ly.toNat = lyAt zeroAt p

/-- The parts of the generator the scanline engine works on. -/
structure SameLine (p q : Ppu) : Prop where
  lcdc : q.lcdc = p.lcdc
  line : q.line = p.line
  cycle : q.lineCycle = p.lineCycle
  mode : q.mode = p.mode
  ly : q.ly = p.ly
  len : q.mode3Len = p.mode3Len

theorem SameLine.refl (p : Ppu) : SameLine p p := ⟨rfl, rfl, rfl, rfl, rfl, rfl⟩

theorem SameLine.inv {z : Nat} {p q : Ppu} (h : SameLine p q) (hi : OnLineInv z p) : OnLineInv z q := by
  obtain ⟨_, h2, h3, h4, h5, h6⟩ := h
  refine ⟨h2 ▸ hi.line, h3 ▸ hi.cycle, ?_, ?_⟩
  · unfold modeAt
    rw [h2, h3, h4, h6]; exact hi.mode
  · unfold lyAt
    rw [h2, h3, h5]; exact hi.ly

theorem lcdcBit_of_lcdc {s t : State} (h : t.ppu.lcdc = s.ppu.lcdc) (i : Nat) : lcdcBit t i = lcdcBit s i := by
  unfold lcdcBit; rw [h]

/-- A state that differs in nothing the scanline engine works on, and not in the parameters. -/
theorem ppuInv_same {s t : State} (h : SameLine s.ppu t.ppu) (hp : t.params = s.params) (hi : PpuInv s) : PpuInv t := by
  obtain ⟨a, b, c⟩ := hi
  unfold PpuInv
  rw [hp, lcdcBit_of_lcdc h.lcdc]
  refine ⟨a, b, ?_⟩
  split
  · rename_i hon
    rw [if_pos hon] at c
    have k : OnLineInv s.params.ly153ZeroAt t.ppu := h.inv ⟨c.1, c.2.1, c.2.2.1, c.2.2.2⟩
    exact ⟨k.line, k.cycle, k.mode, k.ly⟩
  · rename_i hoff
    rw [if_neg hoff] at c
    rw [h.line, h.cycle, h.mode, h.ly]
    exact c

theorem renderSoFar_same (s : State) : SameLine s.ppu (renderSoFar s).ppu := by
  obtain ⟨lb, rx, h, _⟩ := renderSoFar_eq s
  rw [h]; exact ⟨rfl, rfl, rfl, rfl, rfl, rfl⟩

theorem enterMode2_ppu (s : State) : (enterMode2 s).ppu = { s.ppu with mode := .oamScan, renderedX := 0 } := by
  unfold enterMode2; simp
theorem enterMode1_ppu (s : State) :
    (enterMode1 s).ppu = { s.ppu with mode := .vblank, frames := s.ppu.frames ++ [s.ppu.frame] } := by
  unfold enterMode1; simp
theorem enterMode3_ppu (s : State) :
    (enterMode3 s).ppu = { s.ppu with mode := .transfer, spriteList := oamScan s,
                                      mode3Len := 172 + m3Extra s (oamScan s).length } := rfl

theorem hdmaAtMode0_ppu' {s t : State} (h : hdmaAtMode0 s = .ok t) : t.ppu = s.ppu := by
  unfold hdmaAtMode0 at h
  split at h
  · exact hdmaBlock_ppu h
  · cases h; rfl

/-- The entry to mode 0: the line is finished and the mode is 0 (R406). -/
theorem enterMode0_ppu {s t : State} (h : enterMode0 s = .ok t) :
    ∃ lb rx fr, t.ppu = { s.ppu with lineBuf := lb, renderedX := rx, frame := fr, mode := .hblank } ∧
      lb.length = s.ppu.lineBuf.length ∧ rx ≤ max s.ppu.renderedX 160 ∧
      (s.ppu.lineBuf.length = 160 → FrameSize s.ppu.frame → FrameSize fr) := by
  obtain ⟨s1, h1, h⟩ := bind_eq_ok.mp h
  cases h
  obtain ⟨lb, rx, fr, hf, hl, hr, hs⟩ := finishLine_eq s
  refine ⟨lb, rx, fr, ?_, hl, hr, hs⟩
  have e : (requestIf (statEnable s1 3) .stat s1).ppu = s1.ppu := by simp
  rw [e, hdmaAtMode0_ppu' h1]
  unfold lineDone
  rw [hf]; rfl

/-- The mode changes inside a line (R402), at cycle `lineCycle` of a state whose mode is that of the cycle before: the
mode is again the one of the line and cycle. -/
theorem lineEvents_ppu {u s1 : State} {c : Nat} (hc : u.ppu.lineCycle = c + 1)
    (hm : u.ppu.mode = modeAt { u.ppu with lineCycle := c }) (h : lineEvents u = .ok s1) :
    s1.ppu.lcdc = u.ppu.lcdc ∧ s1.ppu.line = u.ppu.line ∧ s1.ppu.lineCycle = u.ppu.lineCycle ∧
      s1.ppu.ly = u.ppu.ly ∧ s1.ppu.mode = modeAt s1.ppu := by
  unfold modeAt at hm
  simp only [] at hm
  unfold lineEvents at h
  by_cases hl : u.ppu.line < 144
  · rw [if_pos hl] at h
    rw [if_neg (show ¬ 144 ≤ u.ppu.line by omega)] at hm
    unfold mode3At80 at h
    by_cases h80 : u.ppu.lineCycle = 80
    · rw [if_pos h80] at h
      unfold mode0AtEnd at h
      rw [enterMode3_ppu] at h
      simp only [] at h
      rw [if_neg (by omega)] at h
      cases h
      rw [enterMode3_ppu]
      refine ⟨rfl, rfl, rfl, rfl, ?_⟩
      unfold modeAt
      simp only []
      rw [if_neg (by omega), if_neg (by omega), if_pos (by omega)]
    · rw [if_neg h80] at h
      unfold mode0AtEnd at h
      by_cases he : u.ppu.lineCycle = 80 + u.ppu.mode3Len
      · rw [if_pos he] at h
        obtain ⟨lb, rx, fr, hp, _⟩ := enterMode0_ppu h
        rw [hp]
        refine ⟨rfl, rfl, rfl, rfl, ?_⟩
        unfold modeAt
        simp only []
        rw [if_neg (by omega), if_neg (by omega), if_neg (by omega)]
      · rw [if_neg he] at h
        cases h
        refine ⟨rfl, rfl, rfl, rfl, ?_⟩
        rw [hm]
        unfold modeAt
        rw [if_neg (show ¬ 144 ≤ u.ppu.line by omega), hc]
        by_cases h1 : c < 80
        · rw [if_pos h1, if_pos (by omega)]
        · rw [if_neg h1, if_neg (show ¬ c + 1 < 80 by omega)]
          by_cases h2 : c < 80 + u.ppu.mode3Len
          · rw [if_pos h2, if_pos (by omega)]
          · rw [if_neg h2, if_neg (by omega)]
  · rw [if_neg hl] at h
    cases h
    rw [if_pos (by omega)] at hm
    refine ⟨rfl, rfl, rfl, rfl, ?_⟩
    unfold modeAt
    rw [if_pos (by omega), hm]

/-- The position in the frame: 456 cycles a line (R401). -/
def framePos (p : Ppu) : Nat := 456 * p.line + p.lineCycle

theorem line153Event_ppu (s : State) :
    (line153Event s).ppu =
      if s.ppu.line = 153 ∧ s.ppu.lineCycle = s.params.ly153ZeroAt then { s.ppu with ly := 0 } else s.ppu := by
  unfold line153Event
  split <;> simp

/-- One cycle keeps the relation of line, cycle, mode and `LY`, and moves the position in the frame by one (R402,
R409, R413). -/
theorem ppuCycle_line {s t : State} (hz1 : 1 ≤ s.params.ly153ZeroAt) (hz2 : s.params.ly153ZeroAt ≤ 455)
    (hi : OnLineInv s.params.ly153ZeroAt s.ppu) (h : ppuCycle s = .ok t) :
    OnLineInv s.params.ly153ZeroAt t.ppu ∧ t.ppu.lcdc = s.ppu.lcdc ∧
      framePos t.ppu = (framePos s.ppu + 1) % 70224 := by
  obtain ⟨s1, h1, h⟩ := bind_eq_ok.mp h
  cases h
  obtain ⟨e1, e2, e3, e4, e5⟩ := lineEvents_ppu (u := setPpu { s.ppu with lineCycle := s.ppu.lineCycle + 1 } s)
    (c := s.ppu.lineCycle) rfl hi.mode h1
  simp only [setPpu] at e1 e2 e3 e4
  have hp : s1.params = s.params := by rw [lineEvents_params h1]; rfl
  have hly := hi.ly
  have hl := hi.line
  have hc := hi.cycle
  unfold lyAt at hly
  -- the event of line 153
  have f : ∃ y, (line153Event s1).ppu = { s1.ppu with ly := y } ∧
      y.toNat = lyAt s.params.ly153ZeroAt { s1.ppu with ly := y } := by
    rw [line153Event_ppu, e2, e3, hp]
    by_cases h153 : s.ppu.line = 153 ∧ s.ppu.lineCycle + 1 = s.params.ly153ZeroAt
    · rw [if_pos h153]
      refine ⟨0, rfl, ?_⟩
      unfold lyAt
      show 0 = if s1.ppu.line = 153 ∧ s.params.ly153ZeroAt ≤ s1.ppu.lineCycle then 0 else s1.ppu.line
      rw [if_pos (by omega)]
    · rw [if_neg h153]
      refine ⟨s1.ppu.ly, rfl, ?_⟩
      unfold lyAt
      show s1.ppu.ly.toNat = if s1.ppu.line = 153 ∧ s.params.ly153ZeroAt ≤ s1.ppu.lineCycle then 0 else s1.ppu.line
      rw [e4, hly, e2, e3]
      by_cases hh : s.ppu.line = 153 ∧ s.params.ly153ZeroAt ≤ s.ppu.lineCycle
      · rw [if_pos hh, if_pos (by omega)]
      · rw [if_neg hh, if_neg (by omega)]
  obtain ⟨y, f1, f2⟩ := f
  unfold lineEnd
  by_cases h456 : s.ppu.lineCycle + 1 = 456
  · rw [if_pos (by rw [f1]; show s1.ppu.lineCycle = 456; omega)]
    unfold nextLine
    by_cases h153 : s.ppu.line = 153
    · rw [if_pos (by rw [f1]; show s1.ppu.line = 153; omega)]
      unfold firstLine
      rw [enterMode2_ppu, f1]
      have hy0 : y.toNat = 0 := by
        rw [f2]
        unfold lyAt
        show (if s1.ppu.line = 153 ∧ s.params.ly153ZeroAt ≤ s1.ppu.lineCycle then 0 else s1.ppu.line) = 0
        rw [if_pos (by omega)]
      refine ⟨⟨by show (0 : Nat) ≤ 153; omega, by show (0 : Nat) ≤ 455; omega, rfl, ?_⟩, e1, ?_⟩
      · show y.toNat = _
        rw [hy0]; rfl
      · show 456 * 0 + 0 = _
        unfold framePos
        omega
    · rw [if_neg (by rw [f1]; show ¬ s1.ppu.line = 153; omega)]
      have ha : (advanceLine (line153Event s1)).ppu =
          { s1.ppu with lineCycle := 0, line := s1.ppu.line + 1, ly := BitVec.ofNat 8 (s1.ppu.line + 1) } := by
        unfold advanceLine
        rw [compareLy_ppu, f1]; rfl
      have hly' : (BitVec.ofNat 8 (s1.ppu.line + 1)).toNat = s1.ppu.line + 1 := by
        rw [BitVec.toNat_ofNat]; omega
      have pos : framePos { s1.ppu with lineCycle := 0, line := s1.ppu.line + 1, ly := BitVec.ofNat 8 (s1.ppu.line + 1) }
          = (framePos s.ppu + 1) % 70224 := by
        show 456 * (s1.ppu.line + 1) + 0 = _
        unfold framePos
        omega
      have lyk : ∀ q : Ppu, q.line = s1.ppu.line + 1 → q.lineCycle = 0 → q.ly = BitVec.ofNat 8 (s1.ppu.line + 1) →
          q.ly.toNat = lyAt s.params.ly153ZeroAt q := by
        intro q q1 q2 q3
        unfold lyAt
        rw [q3, hly', if_neg (by omega), q1]
      unfold startLine
      rw [ha]
      by_cases hv : s1.ppu.line + 1 < 144
      · rw [if_pos (show s1.ppu.line + 1 < 144 from hv), enterMode2_ppu, ha]
        refine ⟨⟨by show s1.ppu.line + 1 ≤ 153; omega, by show 0 ≤ 455; omega, ?_, lyk _ rfl rfl rfl⟩, e1, pos⟩
        unfold modeAt
        rw [if_neg (show ¬ 144 ≤ s1.ppu.line + 1 by omega)]; rfl
      · rw [if_neg (show ¬ s1.ppu.line + 1 < 144 from hv)]
        by_cases hv' : s1.ppu.line + 1 = 144
        · rw [if_pos (show s1.ppu.line + 1 = 144 from hv'), enterMode1_ppu, ha]
          refine ⟨⟨by show s1.ppu.line + 1 ≤ 153; omega, by show 0 ≤ 455; omega, ?_, lyk _ rfl rfl rfl⟩, e1, pos⟩
          unfold modeAt
          rw [if_pos (show 144 ≤ s1.ppu.line + 1 by omega)]
        · rw [if_neg (show ¬ s1.ppu.line + 1 = 144 from hv'), ha]
          refine ⟨⟨by show s1.ppu.line + 1 ≤ 153; omega, by show 0 ≤ 455; omega, ?_, lyk _ rfl rfl rfl⟩, e1, pos⟩
          show s1.ppu.mode = _
          rw [e5]
          unfold modeAt
          rw [if_pos (show 144 ≤ s1.ppu.line by omega), if_pos (show 144 ≤ s1.ppu.line + 1 by omega)]
  · rw [if_neg (by rw [f1]; show ¬ s1.ppu.lineCycle = 456; omega), f1]
    refine ⟨⟨by show s1.ppu.line ≤ 153; omega, by show s1.ppu.lineCycle ≤ 455; omega, e5, f2⟩, e1, ?_⟩
    show 456 * s1.ppu.line + s1.ppu.lineCycle = _
    unfold framePos
    omega

/-- Many cycles (R402). -/
theorem ppuCycles_line {n : Nat} {s t : State} (hz1 : 1 ≤ s.params.ly153ZeroAt) (hz2 : s.params.ly153ZeroAt ≤ 455)
    (hi : OnLineInv s.params.ly153ZeroAt s.ppu) (h : ppuCycles n s = .ok t) :
    OnLineInv s.params.ly153ZeroAt t.ppu ∧ t.ppu.lcdc = s.ppu.lcdc ∧
      framePos t.ppu = (framePos s.ppu + n) % 70224 := by
  induction n generalizing s with
  | zero =>
    cases h
    refine ⟨hi, rfl, ?_⟩
    have := hi.line
    have := hi.cycle
    unfold framePos
    omega
  | succ n ih =>
    obtain ⟨s1, h1, h⟩ := bind_eq_ok.mp h
    obtain ⟨i1, l1, p1⟩ := ppuCycle_line hz1 hz2 hi h1
    have hp := ppuCycle_params h1
    have k := ih (by rw [hp]; exact hz1) (by rw [hp]; exact hz2) (by rw [hp]; exact i1) h
    rw [hp] at k
    obtain ⟨i2, l2, p2⟩ := k
    exact ⟨i2, l2.trans l1, by omega⟩

/-- Two positions on the screen are the same if their frame positions are. -/
theorem framePos_inj {p q : Ppu} (hp : p.lineCycle ≤ 455) (hq : q.lineCycle ≤ 455) (h : framePos p = framePos q) :
    p.line = q.line ∧ p.lineCycle = q.lineCycle := by
  unfold framePos at h
  omega

/-- The picture generator's share of a tick keeps the scanline invariant. -/
theorem ppuInv_advance {n : Nat} {s t : State} (h : ppuAdvance n s = .ok t) (hi : PpuInv s) : PpuInv t := by
  unfold ppuAdvance at h
  split at h
  · rename_i hon
    obtain ⟨a, b, c⟩ := hi
    rw [if_pos hon] at c
    obtain ⟨k, l, _⟩ := ppuCycles_line a b ⟨c.1, c.2.1, c.2.2.1, c.2.2.2⟩ h
    unfold PpuInv
    rw [ppuCycles_params h, lcdcBit_of_lcdc l, if_pos hon]
    exact ⟨a, b, k.line, k.cycle, k.mode, k.ly⟩
  · cases h; exact hi

end Sys2Proof.Machine
end

