-- ==== Sys2Proof/Laws/Invariants.lean ====
section
/-! SUPPORT. Each invariant of Safety.lean is kept by a bus write and by `Tick`: the two halves from which the
induction of Laws/Step.lean makes an invariant of every step. -/

namespace Sys2Proof.Machine

/-! ### The scanline engine -/

theorem writeStat_same (v : Byte) (s : State) : SameLine s.ppu (writeStat v s).ppu := ⟨rfl, rfl, rfl, rfl, rfl, rfl⟩

theorem displayOn_ppu (s : State) :
    (displayOn s).ppu = { s.ppu with line := 0, ly := 0, lineCycle := 0, mode := .oamScan, renderedX := 0 } := by
  unfold displayOn
  rw [compareLy_ppu, enterMode2_ppu]; rfl

/-- The display just switched on is at the start of line 0 (R412). -/
theorem ppuInv_displayOn {s : State} (h : bit s.ppu.lcdc 7 = true) (a : 1 ≤ s.params.ly153ZeroAt)
    (b : s.params.ly153ZeroAt ≤ 455) : PpuInv (displayOn s) := by
  refine ⟨by rw [displayOn_params]; exact a, by rw [displayOn_params]; exact b, ?_⟩
  rw [if_pos (by unfold lcdcBit; rw [displayOn_ppu]; exact h), displayOn_ppu]
  refine ⟨Nat.zero_le _, Nat.zero_le _, rfl, ?_⟩
  unfold lyAt
  rw [if_neg (fun hc => absurd (show (0 : Nat) = 153 from hc.1) (by decide))]
  rfl

theorem displayOff_ppu (s : State) :
    ∃ fr, (displayOff s).ppu =
      { s.ppu with line := 0, ly := 0, lineCycle := 0, mode := .hblank, renderedX := 0, frame := fr } := ⟨_, rfl⟩

theorem ppuInv_displayOff {s : State} (h : bit s.ppu.lcdc 7 = false) (a : 1 ≤ s.params.ly153ZeroAt)
    (b : s.params.ly153ZeroAt ≤ 455) : PpuInv (displayOff s) := by
  obtain ⟨fr, e⟩ := displayOff_ppu s
  refine ⟨by rw [displayOff_params]; exact a, by rw [displayOff_params]; exact b, ?_⟩
  rw [if_neg (by unfold lcdcBit; rw [e]; show ¬ bit s.ppu.lcdc 7 = true; rw [h]; decide), e]
  exact ⟨rfl, rfl, rfl, rfl⟩

/-- Switching the display keeps the scanline invariant (R412). -/
theorem ppuInv_writeLcdc (v : Byte) {s : State} (hi : PpuInv s) : PpuInv (writeLcdc v s) := by
  have hs := renderSoFar_same s
  have hi' : PpuInv (renderSoFar s) := ppuInv_same hs (renderSoFar_params s) hi
  obtain ⟨a, b, c⟩ := hi'
  unfold writeLcdc
  simp only []
  cases h1 : bit (renderSoFar s).ppu.lcdc 7 <;> cases h2 : bit v 7 <;> simp only []
  · rw [if_neg (by unfold lcdcBit; rw [h1]; decide)] at c
    refine ⟨a, b, ?_⟩
    rw [if_neg (show ¬ lcdcBit (setPpu { (renderSoFar s).ppu with lcdc := v } (renderSoFar s)) 7 = true by
      show ¬ bit v 7 = true; rw [h2]; decide)]
    exact c
  · exact ppuInv_displayOn h2 a b
  · exact ppuInv_displayOff h2 a b
  · rw [if_pos (by unfold lcdcBit; exact h1)] at c
    refine ⟨a, b, ?_⟩
    rw [if_pos (show lcdcBit (setPpu { (renderSoFar s).ppu with lcdc := v } (renderSoFar s)) 7 = true from h2)]
    exact c

/-- Every plain register write other than `LCDC` leaves the scanline engine alone. -/
theorem writeIoPlain_same (r : IoReg) (v : Byte) (s : State) (hr : r ≠ .lcdc) :
    SameLine s.ppu (writeIoPlain r v s).ppu := by
  have hs := renderSoFar_same s
  cases r <;> simp only [writeIoPlain]
  case lcdc => exact absurd rfl hr
  case scy => exact ⟨hs.lcdc, hs.line, hs.cycle, hs.mode, hs.ly, hs.len⟩
  case scx => exact ⟨hs.lcdc, hs.line, hs.cycle, hs.mode, hs.ly, hs.len⟩
  case bgp => exact ⟨hs.lcdc, hs.line, hs.cycle, hs.mode, hs.ly, hs.len⟩
  case obp0 => exact ⟨hs.lcdc, hs.line, hs.cycle, hs.mode, hs.ly, hs.len⟩
  case obp1 => exact ⟨hs.lcdc, hs.line, hs.cycle, hs.mode, hs.ly, hs.len⟩
  case wy => exact ⟨hs.lcdc, hs.line, hs.cycle, hs.mode, hs.ly, hs.len⟩
  case wx => exact ⟨hs.lcdc, hs.line, hs.cycle, hs.mode, hs.ly, hs.len⟩
  case bcpd => exact ⟨hs.lcdc, hs.line, hs.cycle, hs.mode, hs.ly, hs.len⟩
  case lyc =>
    unfold writeLyc
    split
    · rw [compareLy_ppu]; exact ⟨rfl, rfl, rfl, rfl, rfl, rfl⟩
    · exact ⟨rfl, rfl, rfl, rfl, rfl, rfl⟩
  all_goals first | exact ⟨rfl, rfl, rfl, rfl, rfl, rfl⟩ | (simp; exact SameLine.refl _)

theorem writeHdma5_same {v : Byte} {s t : State} (h : writeHdma5 v s = .ok t) : SameLine s.ppu t.ppu := by
  unfold writeHdma5 at h
  split at h
  · obtain ⟨s1, h1, h⟩ := bind_eq_ok.mp h
    cases h
    have := renderSoFar_same s
    rw [← hdmaCopy_ppu h1] at this
    exact this
  all_goals cases h; exact SameLine.refl _

/-- A bus write keeps the scanline invariant. -/
theorem ppuInv_write {a : Word} {v : Byte} {s t : State} (h : writeByte s a v = .ok t) (hi : PpuInv s) : PpuInv t := by
  have hp := writeByte_params h
  by_cases hl : ∃ n, region a = .io n ∧ ioReg s.cart.colorMode n = some .lcdc
  · obtain ⟨n, h1, h2⟩ := hl
    unfold writeByte at h
    rw [h1] at h
    simp only [h2] at h
    cases h
    exact ppuInv_writeLcdc v hi
  · refine ppuInv_same ?_ hp hi
    unfold writeByte at h
    cases hr : region a with
    | io n =>
      rw [hr] at h
      simp only [] at h
      cases hg : ioReg s.cart.colorMode n with
      | none =>
        rw [hg] at h
        rw [writeUnmapped_ppu h]; exact SameLine.refl _
      | some r =>
        rw [hg] at h
        simp only [] at h
        unfold writeIo at h
        split at h
        · rw [writeDma_ppu h]; exact SameLine.refl _
        · split at h
          · exact writeHdma5_same h
          · cases h
            exact writeIoPlain_same r v s (fun he => hl ⟨n, hr, he ▸ hg⟩)
    | nothing =>
      rw [hr] at h
      rw [writeUnmapped_ppu h]; exact SameLine.refl _
    | romFixed off => rw [hr] at h; cases h; rw [writeController_ppu]; exact SameLine.refl _
    | romBanked off => rw [hr] at h; cases h; rw [writeController_ppu]; exact SameLine.refl _
    | cartRam off => rw [hr] at h; cases h; rw [writeWindow_ppu]; exact SameLine.refl _
    | vram off => rw [hr] at h; cases h; split <;> exact SameLine.refl _
    | oam off => rw [hr] at h; cases h; split <;> exact SameLine.refl _
    | wramFixed off => rw [hr] at h; cases h; exact SameLine.refl _
    | wramBanked off => rw [hr] at h; cases h; exact SameLine.refl _
    | hram off => rw [hr] at h; cases h; exact SameLine.refl _
    | ie => rw [hr] at h; cases h; exact SameLine.refl _

theorem tick_ppu {n : Nat} {s t : State} (h : tick n s = .ok t) :
    ∃ s1, ppuAdvance (generatorCycles n s) s = .ok s1 ∧ t.ppu = s1.ppu ∧ t.params = s1.params := by
  obtain ⟨s1, h1, h⟩ := bind_eq_ok.mp h
  cases h
  exact ⟨s1, h1, by simp, by simp⟩

/-- `Tick` keeps the scanline invariant. -/
theorem ppuInv_tick {n : Nat} {s t : State} (h : tick n s = .ok t) (hi : PpuInv s) : PpuInv t := by
  obtain ⟨s1, h1, h2, h3⟩ := tick_ppu h
  exact ppuInv_same (by rw [h2]; exact SameLine.refl _) h3 (ppuInv_advance h1 hi)

end Sys2Proof.Machine
end

