-- ==== Sys2Proof/Laws/Plain.lean ====
section
/-! SUPPORT. Plain storage: what a bus write to it does, and what every address then reads. -/

namespace Sys2Proof.Machine

/-- `v` stored in one physical byte of plain storage. -/
def storeCell (c : Store × Nat) (v : Byte) (s : State) : State :=
  match c.1 with
  | .vram => { s with vram := s.vram.write c.2 v }
  | .wram => { s with wram := s.wram.write c.2 v }
  | .oam => { s with oam := s.oam.write c.2 v }
  | .hram => { s with hram := s.hram.write c.2 v }
  | .cram => { s with cram := s.cram.write c.2 v }

/-- A bus write to plain storage stores the byte, unless the picture generator hides it. -/
theorem writeByte_plain {s : State} {a : Word} {c : Store × Nat} (v : Byte) (h : plainCell s a = some c) :
    writeByte s a v = .ok (if hidden s c.1 then s else storeCell c v s) := by
  unfold writeByte
  cases hr : region a <;> simp only [plainCell, hr] at h ⊢
  all_goals first | (cases h; rfl) | cases h | skip
  rename_i off
  split at h
  · rename_i o hw
    cases h
    simp only [writeWindow, hw]
    rfl
  · cases h

/-- What the bus reads at plain storage. -/
theorem readByte_plain {s : State} {a : Word} {c : Store × Nat} (h : plainCell s a = some c) :
    readByte s a = .ok (if hidden s c.1 then 0xFF else
      match c.1 with
      | .vram => s.vram.read c.2 | .wram => s.wram.read c.2 | .oam => s.oam.read c.2
      | .hram => s.hram.read c.2 | .cram => s.cram.read c.2) := by
  unfold readByte readWith
  cases hr : region a <;> simp only [plainCell, hr] at h ⊢
  all_goals first | (cases h; rfl) | cases h | skip
  rename_i off
  split at h
  · rename_i o hw
    cases h
    simp only [readWindow, hw]
    rfl
  · cases h

/-- A window onto cartridge RAM rules out the cells of `MBC2`. -/
theorem window_not_cell {s : State} {off off' o o' : Nat} (h : window s off = .ram o) : window s off' ≠ .cell o' := by
  intro h'
  have hr : ∀ b off, ramWindow s b off ≠ .cell o' := by
    intro b off hc
    unfold ramWindow at hc
    split at hc <;> cases hc
  have hk : ∀ x, clockWindow x ≠ .cell o' := by
    intro x hc
    unfold clockWindow at hc
    split at hc <;> cases hc
  have hm : ∀ off, mbc3Window s off ≠ .cell o' := by
    intro off hc
    unfold mbc3Window at hc
    split at hc
    · exact hr _ _ hc
    · split at hc
      · exact hk _ hc
      · cases hc
  unfold window at h h'
  split at h'
  · exact hr _ _ h'
  · split at h'
    · exact hr _ _ h'
    · cases h'
  · rename_i hkind
    rw [hkind] at h
    simp only [] at h
    split at h <;> cases h
  · split at h'
    · exact hm _ h'
    · cases h'
  · split at h'
    · exact hr _ _ h'
    · cases h'
  · split at h'
    · exact hr _ _ h'
    · cases h'

/-- Which byte is behind an address, and what is hidden, does not depend on what is stored. -/
theorem plainCell_storeCell (c : Store × Nat) (v : Byte) (s : State) (b : Word) :
    plainCell (storeCell c v s) b = plainCell s b := by
  obtain ⟨x, o⟩ := c
  cases x <;> rfl

theorem hidden_storeCell (c : Store × Nat) (v : Byte) (s : State) (x : Store) :
    hidden (storeCell c v s) x = hidden s x := by
  obtain ⟨y, o⟩ := c
  cases y <;> cases x <;> rfl

theorem memoryInv_storeCell {s : State} (c : Store × Nat) (v : Byte) (h : MemoryInv s) : MemoryInv (storeCell c v s) := by
  obtain ⟨x, o⟩ := c
  obtain ⟨h1, h2, h3, h4, h5, h6⟩ := h
  cases x
  · exact ⟨Memory.wf_write _ _ h1, h2, h3, h4, h5, h6⟩
  · exact ⟨h1, Memory.wf_write _ _ h2, h3, h4, h5, h6⟩
  · exact ⟨h1, h2, Memory.wf_write _ _ h3, h4, h5, h6⟩
  · exact ⟨h1, h2, h3, Memory.wf_write _ _ h4, h5, h6⟩
  · exact ⟨h1, h2, h3, h4, Memory.wf_write _ _ h5, h6⟩

/-- An address that is not plain storage reads as before a store to plain storage. -/
theorem readByte_notPlain {s : State} {a : Word} {c : Store × Nat} (v : Byte) {b : Word} (h : plainCell s a = some c)
    (hb : plainCell s b = none) : readByte (storeCell c v s) b = readByte s b := by
  obtain ⟨x, o⟩ := c
  unfold readByte readWith
  cases hr : region b <;> simp only [plainCell, hr] at hb ⊢
  all_goals first | cases hb | skip
  case romFixed => cases x <;> rfl
  case romBanked => cases x <;> rfl
  case nothing => cases x <;> rfl
  case ie => cases x <;> rfl
  case cartRam off =>
    split at hb
    · cases hb
    · rename_i hw
      cases x
      case cram =>
        have hc : ∀ o', window s off ≠ .cell o' := by
          intro o'
          cases hra : region a <;> simp only [plainCell, hra] at h
          all_goals first | cases h | skip
          split at h
          · exact window_not_cell ‹_›
          · cases h
        show Except.ok (readWindow (storeCell (.cram, o) v s) off) = Except.ok (readWindow s off)
        unfold readWindow
        rw [show window (storeCell (.cram, o) v s) off = window s off from rfl]
        cases hx : window s off with
        | ram o' => exact absurd hx (hw o')
        | cell o' => exact absurd hx (hc o')
        | _ => rfl
      all_goals rfl
  case io n =>
    have e : ∀ r, readIo r (storeCell (x, o) v s) = readIo r s := by
      intro r
      cases x <;> cases r <;> rfl
    simp only [e]
    cases x <;> rfl

/-- What every address reads after a store to plain storage that is not hidden. -/
theorem readByte_storeCell {s : State} {a : Word} {c : Store × Nat} (v : Byte) (hm : MemoryInv s)
    (h : plainCell s a = some c) (hh : hidden s c.1 = false) (b : Word) :
    readByte (storeCell c v s) b = if plainCell s b = some c then .ok v else readByte s b := by
  obtain ⟨h1, h2, h3, h4, h5, _⟩ := hm
  cases hb : plainCell s b with
  | none => simpa using readByte_notPlain v h hb
  | some d =>
    have hb' : plainCell (storeCell c v s) b = some d := (plainCell_storeCell c v s b).trans hb
    rw [readByte_plain hb', readByte_plain hb, hidden_storeCell]
    obtain ⟨x, o⟩ := c
    obtain ⟨y, p⟩ := d
    by_cases hxy : y = x
    · subst hxy
      rw [show hidden s y = false from hh]
      simp only [Bool.false_eq_true, if_false, Option.some.injEq, Prod.mk.injEq, true_and]
      cases y <;> simp only [storeCell, Memory.read_write, h1, h2, h3, h4, h5] <;> split <;> rfl
    · rw [if_neg (show ¬ (some (y, p) = some (x, o)) by simp [hxy])]
      cases x <;> cases y <;> first | rfl | exact absurd rfl hxy

/-- The same with the hidden case: what every address reads after a bus write to plain storage. -/
theorem readByte_written {s : State} {a : Word} {c : Store × Nat} (v : Byte) (hm : MemoryInv s)
    (h : plainCell s a = some c) (b : Word) :
    readByte (if hidden s c.1 then s else storeCell c v s) b = afterStore s c v b (readByte s b) := by
  unfold afterStore
  cases hh : hidden s c.1 with
  | true => simp
  | false => simpa using readByte_storeCell v hm h hh b

end Sys2Proof.Machine
end

