-- ==== Sys2Proof/Laws/Sound.lean ====
section
/-! SUPPORT. The counters of the sound generator stay in their ranges: by a register write and by a cycle. -/

namespace Sys2Proof.Machine

/-- The ranges of a pulse channel. -/
structure PulseOk (p : Pulse) : Prop where
  timer : 0 < p.timer
  pos : p.dutyPos < 8
  len : p.len ≤ 64

/-- The ranges of channel 3. -/
structure WaveOk (c : WaveCh) : Prop where
  timer : 0 < c.timer
  pos : c.pos < 32
  len : c.len ≤ 256

/-- The ranges of channel 4. -/
structure NoiseOk (c : NoiseCh) : Prop where
  timer : 0 < c.timer
  len : c.len ≤ 64

/-- `SoundInv` by its parts. -/
theorem soundInv_iff (a : Apu) : SoundInv a ↔
    a.seqCounter < 8192 ∧ a.seqPos < 8 ∧ PulseOk a.ch1 ∧ PulseOk a.ch2 ∧ WaveOk a.ch3 ∧ NoiseOk a.ch4 ∧
      0 < a.sweep.timer := by
  constructor
  · rintro ⟨h1, h2, h3, h4, h5, h6, h7, h8, h9, h10, h11, h12, h13, h14⟩
    exact ⟨h1, h2, ⟨h3, h8, h11⟩, ⟨h4, h9, h12⟩, ⟨h5, h10, h13⟩, ⟨h6, h14⟩, h7⟩
  · rintro ⟨h1, h2, p1, p2, w, n, s⟩
    exact ⟨h1, h2, p1.timer, p2.timer, w.timer, n.timer, s, p1.pos, p2.pos, w.pos, p1.len, p2.len, w.len, n.len⟩

theorem pulsePeriod_pos (f : BitVec 11) : 0 < pulsePeriod f := by
  unfold pulsePeriod
  have := f.isLt
  omega

theorem wavePeriod_pos (f : BitVec 11) : 0 < wavePeriod f := by
  unfold wavePeriod
  have := f.isLt
  omega

theorem noisePeriod_pos (v : Byte) : 0 < noisePeriod v := by
  unfold noisePeriod noiseDivisor
  apply Nat.mul_pos
  · split <;> omega
  · exact Nat.two_pow_pos _

theorem sweepReload_pos (w : Sweep) : 0 < w.reload := by
  unfold Sweep.reload
  split
  · decide
  · rename_i h
    have : w.period.toNat ≠ 0 := fun hc => h (BitVec.eq_of_toNat_eq hc)
    omega

theorem pulse_cycle {p : Pulse} (h : PulseOk p) : PulseOk p.cycle := by
  unfold Pulse.cycle
  split
  · exact ⟨pulsePeriod_pos _, Nat.mod_lt _ (by decide), h.len⟩
  · exact ⟨by show 0 < p.timer - 1; omega, h.pos, h.len⟩

theorem pulse_length {p : Pulse} (h : PulseOk p) : PulseOk p.lengthClock := by
  unfold Pulse.lengthClock
  split
  · exact ⟨h.timer, h.pos, by show p.len - 1 ≤ 64; have := h.len; omega⟩
  · exact h

theorem pulse_envelope {p : Pulse} (d : Nat) (h : PulseOk p) : PulseOk (p.envelopeAfter d) := by
  unfold Pulse.envelopeAfter
  split <;> exact ⟨h.timer, h.pos, h.len⟩

theorem pulse_trigger {p : Pulse} (h : PulseOk p) : PulseOk p.trigger := by
  refine ⟨pulsePeriod_pos _, h.pos, ?_⟩
  show (if p.len = 0 then 64 else p.len) ≤ 64
  split
  · exact Nat.le_refl _
  · exact h.len

theorem wave_cycle {c : WaveCh} (ram : Memory) (h : WaveOk c) : WaveOk (c.cycle ram) := by
  unfold WaveCh.cycle
  split
  · exact ⟨wavePeriod_pos _, Nat.mod_lt _ (by decide), h.len⟩
  · exact ⟨by show 0 < c.timer - 1; omega, h.pos, h.len⟩

theorem wave_length {c : WaveCh} (h : WaveOk c) : WaveOk c.lengthClock := by
  unfold WaveCh.lengthClock
  split
  · exact ⟨h.timer, h.pos, by show c.len - 1 ≤ 256; have := h.len; omega⟩
  · exact h

theorem wave_trigger {c : WaveCh} (h : WaveOk c) : WaveOk c.trigger := by
  refine ⟨wavePeriod_pos _, Nat.succ_pos _, ?_⟩
  show (if c.len = 0 then 256 else c.len) ≤ 256
  split
  · exact Nat.le_refl _
  · exact h.len

theorem noise_cycle {c : NoiseCh} (h : NoiseOk c) : NoiseOk c.cycle := by
  unfold NoiseCh.cycle
  split
  · exact ⟨noisePeriod_pos _, h.len⟩
  · exact ⟨by show 0 < c.timer - 1; omega, h.len⟩

theorem noise_length {c : NoiseCh} (h : NoiseOk c) : NoiseOk c.lengthClock := by
  unfold NoiseCh.lengthClock
  split
  · exact ⟨h.timer, by show c.len - 1 ≤ 64; have := h.len; omega⟩
  · exact h

theorem noise_envelope {c : NoiseCh} (d : Nat) (h : NoiseOk c) : NoiseOk (c.envelopeAfter d) := by
  unfold NoiseCh.envelopeAfter
  split <;> exact ⟨h.timer, h.len⟩

theorem noise_trigger {c : NoiseCh} (h : NoiseOk c) : NoiseOk c.trigger := by
  refine ⟨noisePeriod_pos _, ?_⟩
  show (if c.len = 0 then 64 else c.len) ≤ 64
  split
  · exact Nat.le_refl _
  · exact h.len

/-- The sweep's clock changes channel 1's enable and frequency, and the sweep's own timer. -/
theorem sweepClock_ok {p : Pulse} {w : Sweep} (hp : PulseOk p) (hw : 0 < w.timer) :
    PulseOk (sweepClock p w).1 ∧ 0 < (sweepClock p w).2.timer := by
  have hs : ∀ w', 0 < w'.timer → PulseOk (sweepStep p w').1 ∧ 0 < (sweepStep p w').2.timer := by
    intro w' h
    unfold sweepStep
    simp only []
    split
    · exact ⟨⟨hp.timer, hp.pos, hp.len⟩, h⟩
    · split
      · exact ⟨hp, h⟩
      · exact ⟨⟨hp.timer, hp.pos, hp.len⟩, h⟩
  unfold sweepClock
  split
  · split
    · exact hs _ (sweepReload_pos w)
    · exact ⟨hp, sweepReload_pos w⟩
  · exact ⟨hp, by show 0 < w.timer - 1; omega⟩

theorem soundInv_envelopes {a : Apu} (h : SoundInv a) : SoundInv a.envelope1.envelope2.envelope4 := by
  have e1 : ∀ a : Apu, SoundInv a → SoundInv a.envelope1 := by
    intro a h
    unfold Apu.envelope1
    rw [soundInv_iff] at *
    split
    · exact h
    · exact ⟨h.1, h.2.1, pulse_envelope _ h.2.2.1, h.2.2.2⟩
  have e2 : ∀ a : Apu, SoundInv a → SoundInv a.envelope2 := by
    intro a h
    unfold Apu.envelope2
    rw [soundInv_iff] at *
    split
    · exact h
    · exact ⟨h.1, h.2.1, h.2.2.1, pulse_envelope _ h.2.2.2.1, h.2.2.2.2⟩
  have e4 : ∀ a : Apu, SoundInv a → SoundInv a.envelope4 := by
    intro a h
    unfold Apu.envelope4
    rw [soundInv_iff] at *
    split
    · exact h
    · exact ⟨h.1, h.2.1, h.2.2.1, h.2.2.2.1, h.2.2.2.2.1, noise_envelope _ h.2.2.2.2.2.1, h.2.2.2.2.2.2⟩
  exact e4 _ (e2 _ (e1 _ h))

theorem soundInv_lengths {a : Apu} (h : SoundInv a) : SoundInv a.lengthClocks := by
  rw [soundInv_iff] at *
  obtain ⟨h1, h2, p1, p2, w, n, s⟩ := h
  exact ⟨h1, h2, pulse_length p1, pulse_length p2, wave_length w, noise_length n, s⟩

theorem soundInv_sweep {a : Apu} (h : SoundInv a) : SoundInv a.sweepClock := by
  rw [soundInv_iff] at *
  obtain ⟨h1, h2, p1, p2, w, n, s⟩ := h
  obtain ⟨k1, k2⟩ := sweepClock_ok p1 s
  exact ⟨h1, h2, k1, p2, w, n, k2⟩

theorem soundInv_sequencerAt (p : Nat) {a : Apu} (h : SoundInv a) : SoundInv (a.sequencerAt p) := by
  unfold Apu.sequencerAt
  split
  · exact soundInv_lengths h
  · exact soundInv_sweep (soundInv_lengths h)
  · exact soundInv_lengths h
  · exact soundInv_sweep (soundInv_lengths h)
  · exact soundInv_envelopes h
  · exact h

/-- One cycle keeps the ranges (R501). -/
theorem soundInv_cycle {a : Apu} (h : SoundInv a) : SoundInv a.cycle := by
  have hs : SoundInv a.sequencerCycle := by
    unfold Apu.sequencerCycle
    split
    · have h0 : SoundInv { a with seqCounter := 0 } := by
        rw [soundInv_iff] at *
        exact ⟨Nat.succ_pos _, h.2⟩
      have h1 := soundInv_sequencerAt a.seqPos h0
      unfold Apu.sequencerStep
      rw [soundInv_iff] at *
      exact ⟨h1.1, Nat.mod_lt _ (by decide), h1.2.2⟩
    · rw [soundInv_iff] at *
      exact ⟨by show a.seqCounter + 1 < 8192; omega, h.2⟩
  unfold Apu.cycle Apu.channelCycle
  rw [soundInv_iff] at *
  obtain ⟨h1, h2, p1, p2, w, n, s⟩ := hs
  exact ⟨h1, h2, pulse_cycle p1, pulse_cycle p2, wave_cycle _ w, noise_cycle n, s⟩

theorem soundInv_advance (n : Nat) {a : Apu} (h : SoundInv a) : SoundInv (a.advance n) := by
  have hc : ∀ n (a : Apu), SoundInv a → SoundInv (Apu.cycles n a) := by
    intro n
    induction n with
    | zero => exact fun a h => h
    | succ n ih => exact fun a h => ih _ (soundInv_cycle h)
  unfold Apu.advance
  split
  · exact hc n a h
  · exact h

theorem soundInv_writeOn (r : SoundReg) (v : Byte) {a : Apu} (h : SoundInv a) : SoundInv (a.writeOn r v) := by
  rw [soundInv_iff] at h
  obtain ⟨h1, h2, p1, p2, w, n, s⟩ := h
  cases r <;> simp only [Apu.writeOn]
  case nr11 => exact (soundInv_iff _).mpr ⟨h1, h2, ⟨p1.timer, p1.pos, Nat.sub_le _ _⟩, p2, w, n, s⟩
  case nr12 => exact (soundInv_iff _).mpr ⟨h1, h2, ⟨p1.timer, p1.pos, p1.len⟩, p2, w, n, s⟩
  case nr13 => exact (soundInv_iff _).mpr ⟨h1, h2, ⟨p1.timer, p1.pos, p1.len⟩, p2, w, n, s⟩
  case nr14 =>
    have p1' : PulseOk (a.ch1.writeFreqHigh v) := ⟨p1.timer, p1.pos, p1.len⟩
    split
    · have pt := pulse_trigger p1'
      exact (soundInv_iff _).mpr ⟨h1, h2, ⟨pt.timer, pt.pos, pt.len⟩, p2, w, n, sweepReload_pos _⟩
    · exact (soundInv_iff _).mpr ⟨h1, h2, p1', p2, w, n, s⟩
  case nr21 => exact (soundInv_iff _).mpr ⟨h1, h2, p1, ⟨p2.timer, p2.pos, Nat.sub_le _ _⟩, w, n, s⟩
  case nr22 => exact (soundInv_iff _).mpr ⟨h1, h2, p1, ⟨p2.timer, p2.pos, p2.len⟩, w, n, s⟩
  case nr23 => exact (soundInv_iff _).mpr ⟨h1, h2, p1, ⟨p2.timer, p2.pos, p2.len⟩, w, n, s⟩
  case nr24 =>
    have p2' : PulseOk (a.ch2.writeFreqHigh v) := ⟨p2.timer, p2.pos, p2.len⟩
    refine (soundInv_iff _).mpr ⟨h1, h2, p1, ?_, w, n, s⟩
    show PulseOk (if bit v 7 then _ else _)
    split
    · exact pulse_trigger p2'
    · exact p2'
  case nr30 => exact (soundInv_iff _).mpr ⟨h1, h2, p1, p2, ⟨w.timer, w.pos, w.len⟩, n, s⟩
  case nr31 => exact (soundInv_iff _).mpr ⟨h1, h2, p1, p2, ⟨w.timer, w.pos, Nat.sub_le _ _⟩, n, s⟩
  case nr32 => exact (soundInv_iff _).mpr ⟨h1, h2, p1, p2, ⟨w.timer, w.pos, w.len⟩, n, s⟩
  case nr33 => exact (soundInv_iff _).mpr ⟨h1, h2, p1, p2, ⟨w.timer, w.pos, w.len⟩, n, s⟩
  case nr34 =>
    have w' : WaveOk (a.ch3.writeFreqHigh v) := ⟨w.timer, w.pos, w.len⟩
    refine (soundInv_iff _).mpr ⟨h1, h2, p1, p2, ?_, n, s⟩
    show WaveOk (if bit v 7 then _ else _)
    split
    · exact wave_trigger w'
    · exact w'
  case nr41 => exact (soundInv_iff _).mpr ⟨h1, h2, p1, p2, w, ⟨n.timer, Nat.sub_le _ _⟩, s⟩
  case nr42 => exact (soundInv_iff _).mpr ⟨h1, h2, p1, p2, w, ⟨n.timer, n.len⟩, s⟩
  case nr43 => exact (soundInv_iff _).mpr ⟨h1, h2, p1, p2, w, ⟨n.timer, n.len⟩, s⟩
  case nr44 =>
    have n' : NoiseOk { a.ch4 with lenEn := bit v 6 } := ⟨n.timer, n.len⟩
    refine (soundInv_iff _).mpr ⟨h1, h2, p1, p2, w, ?_, s⟩
    show NoiseOk (if bit v 7 then _ else _)
    split
    · exact noise_trigger n'
    · exact n'
  all_goals exact (soundInv_iff _).mpr ⟨h1, h2, p1, p2, w, n, s⟩

/-- A write to a register of `0xFF10-0xFF25` keeps the ranges. -/
theorem soundInv_write (color : Bool) (r : SoundReg) (v : Byte) {a : Apu} (h : SoundInv a) :
    SoundInv (a.write color r v) := by
  unfold Apu.write
  split
  · exact soundInv_writeOn r v h
  · split
    · exact h
    · rw [soundInv_iff] at h
      obtain ⟨h1, h2, p1, p2, w, n, s⟩ := h
      cases r <;> simp only [Apu.writeOffMono]
      case nr11 => exact (soundInv_iff _).mpr ⟨h1, h2, ⟨p1.timer, p1.pos, Nat.sub_le _ _⟩, p2, w, n, s⟩
      case nr21 => exact (soundInv_iff _).mpr ⟨h1, h2, p1, ⟨p2.timer, p2.pos, Nat.sub_le _ _⟩, w, n, s⟩
      case nr31 => exact (soundInv_iff _).mpr ⟨h1, h2, p1, p2, ⟨w.timer, w.pos, Nat.sub_le _ _⟩, n, s⟩
      case nr41 => exact (soundInv_iff _).mpr ⟨h1, h2, p1, p2, w, ⟨n.timer, Nat.sub_le _ _⟩, s⟩
      all_goals exact (soundInv_iff _).mpr ⟨h1, h2, p1, p2, w, n, s⟩

/-- A write of `NR52` keeps the ranges. -/
theorem soundInv_master (color : Bool) (v : Byte) {a : Apu} (h : SoundInv a) : SoundInv (a.writeMaster color v) := by
  rw [soundInv_iff] at h
  obtain ⟨h1, h2, p1, p2, w, n, s⟩ := h
  unfold Apu.writeMaster
  split
  · have l : ∀ x b, x ≤ b → (if color then 0 else x) ≤ b := by
      intro x b hx
      split
      · exact Nat.zero_le _
      · exact hx
    exact (soundInv_iff _).mpr ⟨h1, h2, ⟨p1.timer, p1.pos, l _ _ p1.len⟩, ⟨p2.timer, p2.pos, l _ _ p2.len⟩,
      ⟨w.timer, w.pos, l _ _ w.len⟩, ⟨n.timer, l _ _ n.len⟩, s⟩
  · exact (soundInv_iff _).mpr ⟨Nat.succ_pos _, Nat.succ_pos _, ⟨p1.timer, Nat.succ_pos _, p1.len⟩,
      ⟨p2.timer, Nat.succ_pos _, p2.len⟩, ⟨w.timer, Nat.succ_pos _, w.len⟩, n, s⟩
  · exact (soundInv_iff _).mpr ⟨h1, h2, p1, p2, w, n, s⟩

end Sys2Proof.Machine
end

