-- ==== Sys2Proof/Laws/Stores.lean ====
section
/-! SUPPORT. The byte stores stay in canonical form: by a bus write and by `Tick`. -/

namespace Sys2Proof.Machine

/-- The nine stores of a state. -/
structure SameStores (s t : State) : Prop where
  vram : t.vram = s.vram
  wram : t.wram = s.wram
  oam : t.oam = s.oam
  hram : t.hram = s.hram
  cram : t.cram = s.cram
  rom : t.cart = s.cart
  wave : t.apu.waveRam = s.apu.waveRam
  bg : t.ppu.bgPal = s.ppu.bgPal
  obj : t.ppu.objPal = s.ppu.objPal

theorem SameStores.refl (s : State) : SameStores s s := ⟨rfl, rfl, rfl, rfl, rfl, rfl, rfl, rfl, rfl⟩

theorem SameStores.trans {s t u : State} (h : SameStores s t) (h' : SameStores t u) : SameStores s u :=
  ⟨h'.vram.trans h.vram, h'.wram.trans h.wram, h'.oam.trans h.oam, h'.hram.trans h.hram, h'.cram.trans h.cram,
    h'.rom.trans h.rom, h'.wave.trans h.wave, h'.bg.trans h.bg, h'.obj.trans h.obj⟩

theorem SameStores.inv {s t : State} (h : SameStores s t) (hm : MemoryInv s) : MemoryInv t := by
  unfold MemoryInv at *
  rw [h.vram, h.wram, h.oam, h.hram, h.cram, h.rom, h.wave, h.bg, h.obj]
  exact hm

theorem SameStores.setPpu {p : Ppu} {s t : State} (h : SameStores (setPpu p s) t) (h1 : p.bgPal = s.ppu.bgPal)
    (h2 : p.objPal = s.ppu.objPal) : SameStores s t :=
  SameStores.trans (t := Machine.setPpu p s) ⟨rfl, rfl, rfl, rfl, rfl, rfl, rfl, h1, h2⟩ h

theorem renderSoFar_stores (s : State) : SameStores s (renderSoFar s) := by
  obtain ⟨lb, rx, h, _⟩ := renderSoFar_eq s
  rw [h]; exact ⟨rfl, rfl, rfl, rfl, rfl, rfl, rfl, rfl, rfl⟩

theorem finishLine_stores (s : State) : SameStores s (finishLine s) := by
  obtain ⟨lb, rx, fr, h, _⟩ := finishLine_eq s
  rw [h]; exact ⟨rfl, rfl, rfl, rfl, rfl, rfl, rfl, rfl, rfl⟩

theorem requestIf_stores (c : Bool) (n : Source) (s : State) : SameStores s (requestIf c n s) := by
  unfold requestIf
  split <;> exact ⟨rfl, rfl, rfl, rfl, rfl, rfl, rfl, rfl, rfl⟩

theorem compareLy_stores (s : State) : SameStores s (compareLy s) := requestIf_stores _ _ s

theorem enterMode2_stores (s : State) : SameStores s (enterMode2 s) := by
  have := requestIf_stores (statEnable s 5) .stat (setPpu { s.ppu with mode := .oamScan, renderedX := 0 } s)
  exact SameStores.trans (t := setPpu { s.ppu with mode := .oamScan, renderedX := 0 } s)
    ⟨rfl, rfl, rfl, rfl, rfl, rfl, rfl, rfl, rfl⟩ this

theorem memoryInv_oamCopy {src : Word} {i n : Nat} {s t : State} (h : oamCopy src i n s = .ok t) (hm : MemoryInv s) :
    MemoryInv t := by
  induction n generalizing i s with
  | zero => cases h; exact hm
  | succ n ih =>
    obtain ⟨b, _, h⟩ := bind_eq_ok.mp h
    obtain ⟨h1, h2, h3, h4⟩ := hm
    exact ih h ⟨h1, h2, Memory.wf_write _ _ h3, h4⟩

theorem memoryInv_hdmaCopy {n : Nat} {s t : State} (h : hdmaCopy n s = .ok t) (hm : MemoryInv s) : MemoryInv t := by
  induction n generalizing s with
  | zero => cases h; exact hm
  | succ n ih =>
    obtain ⟨b, _, h⟩ := bind_eq_ok.mp h
    obtain ⟨h1, h2⟩ := hm
    exact ih h ⟨Memory.wf_write _ _ h1, h2⟩

theorem memoryInv_hdmaBlock {s t : State} (h : hdmaBlock s = .ok t) (hm : MemoryInv s) : MemoryInv t := by
  obtain ⟨s1, h1, h⟩ := bind_eq_ok.mp h
  have := memoryInv_hdmaCopy h1 hm
  cases h
  split <;> exact this

theorem displayOn_stores (s : State) : SameStores s (displayOn s) := by
  unfold displayOn
  refine SameStores.trans ?_ (compareLy_stores _)
  exact SameStores.setPpu (p := { s.ppu with line := 0, ly := 0, lineCycle := 0 }) (enterMode2_stores _) rfl rfl

theorem writeLcdc_stores (v : Byte) (s : State) : SameStores s (writeLcdc v s) := by
  have h := renderSoFar_stores s
  have h2 : SameStores s (setPpu { (renderSoFar s).ppu with lcdc := v } (renderSoFar s)) :=
    h.trans ⟨rfl, rfl, rfl, rfl, rfl, rfl, rfl, rfl, rfl⟩
  unfold writeLcdc
  simp only []
  split
  · exact h2.trans ⟨rfl, rfl, rfl, rfl, rfl, rfl, rfl, rfl, rfl⟩
  · exact h2.trans (displayOn_stores _)
  · exact h2

/-- A write of the sound generator touches wave RAM only by its own register. -/
theorem writeOn_wave (r : SoundReg) (v : Byte) (a : Apu) : (a.writeOn r v).waveRam = a.waveRam := by
  cases r <;> first | rfl | (simp only [Apu.writeOn]; split <;> rfl)

theorem apuWrite_wave (color : Bool) (r : SoundReg) (v : Byte) (a : Apu) : (a.write color r v).waveRam = a.waveRam := by
  unfold Apu.write
  split
  · exact writeOn_wave r v a
  · split
    · rfl
    · cases r <;> rfl

theorem writeMaster_wave (color : Bool) (v : Byte) (a : Apu) : (a.writeMaster color v).waveRam = a.waveRam := by
  unfold Apu.writeMaster
  split <;> rfl

theorem memoryInv_plainIo (r : IoReg) (v : Byte) {s : State} (hm : MemoryInv s) : MemoryInv (writeIoPlain r v s) := by
  have hr := renderSoFar_stores s
  have hrm := hr.inv hm
  have e : ∀ t, SameStores s t → MemoryInv t := fun t h => h.inv hm
  have k : ∀ p : Ppu, p.bgPal = (renderSoFar s).ppu.bgPal → p.objPal = (renderSoFar s).ppu.objPal →
      MemoryInv (setPpu p (renderSoFar s)) := fun p h1 h2 =>
    SameStores.inv (s := renderSoFar s) ⟨rfl, rfl, rfl, rfl, rfl, rfl, rfl, h1, h2⟩ hrm
  cases r <;> simp only [writeIoPlain]
  case p1 =>
    unfold writeP1 setJoypad
    exact (requestIf_stores _ _ { s with joypad := { s.joypad with p15 := bit v 5, p14 := bit v 4 } }).inv hm
  case sc => unfold writeSc; simp only []; split <;> exact hm
  case sound r =>
    exact e _ ⟨rfl, rfl, rfl, rfl, rfl, rfl, apuWrite_wave _ _ _ _, rfl, rfl⟩
  case nr52 => exact e _ ⟨rfl, rfl, rfl, rfl, rfl, rfl, writeMaster_wave _ _ _, rfl, rfl⟩
  case wave i =>
    obtain ⟨h1, h2, h3, h4, h5, h6, h7, h8⟩ := hm
    exact ⟨h1, h2, h3, h4, h5, h6, Memory.wf_write _ _ h7, h8⟩
  case lcdc => exact (writeLcdc_stores v s).inv hm
  case scy => exact k _ rfl rfl
  case scx => exact k _ rfl rfl
  case bgp => exact k _ rfl rfl
  case obp0 => exact k _ rfl rfl
  case obp1 => exact k _ rfl rfl
  case wy => exact k _ rfl rfl
  case wx => exact k _ rfl rfl
  case lyc =>
    unfold writeLyc
    simp only []
    split
    · exact (SameStores.setPpu (p := { s.ppu with lyc := v }) (compareLy_stores _) rfl rfl).inv hm
    · exact hm
  case bcpd =>
    obtain ⟨h1, h2, h3, h4, h5, h6, h7, h8, h9⟩ := hrm
    exact ⟨h1, h2, h3, h4, h5, h6, h7, Memory.wf_write _ _ h8, h9⟩
  case ocpd =>
    obtain ⟨h1, h2, h3, h4, h5, h6, h7, h8, h9⟩ := hm
    exact ⟨h1, h2, h3, h4, h5, h6, h7, h8, Memory.wf_write _ _ h9⟩
  all_goals exact hm

theorem memoryInv_io {r : IoReg} {v : Byte} {s t : State} (h : writeIo r v s = .ok t) (hm : MemoryInv s) :
    MemoryInv t := by
  unfold writeIo at h
  split at h
  · unfold writeDma at h
    split at h
    · exact memoryInv_oamCopy h hm
    · cases h; exact hm
  · split at h
    · unfold writeHdma5 at h
      split at h
      · obtain ⟨s1, h1, h⟩ := bind_eq_ok.mp h
        have hc := memoryInv_hdmaCopy h1 ((renderSoFar_stores s).inv hm)
        cases h
        exact hc
      all_goals cases h; exact hm
    · cases h; exact memoryInv_plainIo r v hm

theorem memoryInv_window (off : Nat) (v : Byte) {s : State} (hm : MemoryInv s) : MemoryInv (writeWindow s off v) := by
  obtain ⟨h1, h2, h3, h4, h5, h6⟩ := hm
  unfold writeWindow
  split
  case h_2 => exact ⟨h1, h2, h3, h4, Memory.wf_write _ _ h5, h6⟩
  case h_3 => exact ⟨h1, h2, h3, h4, Memory.wf_write _ _ h5, h6⟩
  all_goals first | exact ⟨h1, h2, h3, h4, h5, h6⟩ | (split <;> exact ⟨h1, h2, h3, h4, h5, h6⟩)

theorem writeController_stores (s : State) (a : Nat) (v : Byte) : SameStores s (writeController s a v) := by
  unfold writeController
  repeat' split
  all_goals exact ⟨rfl, rfl, rfl, rfl, rfl, rfl, rfl, rfl, rfl⟩

theorem writeUnmapped_eq {s t : State} {a : Word} (h : writeUnmapped s a = .ok t) : t = s := by
  unfold writeUnmapped at h
  split at h <;> cases h
  rfl

/-- A bus write keeps every store in canonical form. -/
theorem memoryInv_write {a : Word} {v : Byte} {s t : State} (h : writeByte s a v = .ok t) (hm : MemoryInv s) :
    MemoryInv t := by
  obtain ⟨h1, h2, h3, h4, h5, h6⟩ := hm
  unfold writeByte at h
  cases hr : region a <;> rw [hr] at h <;> simp only [] at h
  case romFixed => cases h; exact (writeController_stores _ _ _).inv ⟨h1, h2, h3, h4, h5, h6⟩
  case romBanked => cases h; exact (writeController_stores _ _ _).inv ⟨h1, h2, h3, h4, h5, h6⟩
  case vram =>
    cases h
    split
    · exact ⟨h1, h2, h3, h4, h5, h6⟩
    · exact ⟨Memory.wf_write _ _ h1, h2, h3, h4, h5, h6⟩
  case cartRam => cases h; exact memoryInv_window _ _ ⟨h1, h2, h3, h4, h5, h6⟩
  case wramFixed => cases h; exact ⟨h1, Memory.wf_write _ _ h2, h3, h4, h5, h6⟩
  case wramBanked => cases h; exact ⟨h1, Memory.wf_write _ _ h2, h3, h4, h5, h6⟩
  case oam =>
    cases h
    split
    · exact ⟨h1, h2, h3, h4, h5, h6⟩
    · exact ⟨h1, h2, Memory.wf_write _ _ h3, h4, h5, h6⟩
  case nothing => rw [writeUnmapped_eq h]; exact ⟨h1, h2, h3, h4, h5, h6⟩
  case io =>
    split at h
    · exact memoryInv_io h ⟨h1, h2, h3, h4, h5, h6⟩
    · rw [writeUnmapped_eq h]; exact ⟨h1, h2, h3, h4, h5, h6⟩
  case hram => cases h; exact ⟨h1, h2, h3, Memory.wf_write _ _ h4, h5, h6⟩
  case ie => cases h; exact ⟨h1, h2, h3, h4, h5, h6⟩

theorem memoryInv_enterMode0 {s t : State} (h : enterMode0 s = .ok t) (hm : MemoryInv s) : MemoryInv t := by
  obtain ⟨s1, h1, h⟩ := bind_eq_ok.mp h
  cases h
  refine (requestIf_stores _ _ _).inv ?_
  have hl : MemoryInv (lineDone s) :=
    ((finishLine_stores s).trans ⟨rfl, rfl, rfl, rfl, rfl, rfl, rfl, rfl, rfl⟩).inv hm
  unfold hdmaAtMode0 at h1
  split at h1
  · exact memoryInv_hdmaBlock h1 hl
  · cases h1; exact hl

theorem lineEnd_stores (s : State) : SameStores s (lineEnd s) := by
  unfold lineEnd
  split
  · unfold nextLine
    split
    · exact SameStores.setPpu (p := { s.ppu with lineCycle := 0, line := 0 }) (enterMode2_stores _) rfl rfl
    · have h : SameStores s (advanceLine s) :=
        SameStores.setPpu (p := { s.ppu with lineCycle := 0, line := s.ppu.line + 1, ly := BitVec.ofNat 8 (s.ppu.line + 1) })
          (compareLy_stores _) rfl rfl
      unfold startLine
      split
      · exact h.trans (enterMode2_stores _)
      · split
        · have h1 : SameStores (advanceLine s) (enterMode1 (advanceLine s)) := by
            exact ⟨by simp, by simp, by simp, by simp, by simp, by simp, by simp, by rw [enterMode1_ppu], by rw [enterMode1_ppu]⟩
          exact h.trans h1
        · exact h
  · exact SameStores.refl s

theorem memoryInv_cycle {s t : State} (h : ppuCycle s = .ok t) (hm : MemoryInv s) : MemoryInv t := by
  obtain ⟨s1, h1, h⟩ := bind_eq_ok.mp h
  cases h
  have hs1 : MemoryInv s1 := by
    unfold lineEvents at h1
    split at h1
    · unfold mode0AtEnd at h1
      have h3 : MemoryInv (mode3At80 (setPpu { s.ppu with lineCycle := s.ppu.lineCycle + 1 } s)) := by
        unfold mode3At80; split <;> exact hm
      split at h1
      · exact memoryInv_enterMode0 h1 h3
      · cases h1; exact h3
    · cases h1; exact hm
  have hs2 : MemoryInv (line153Event s1) := by
    unfold line153Event
    split
    · exact (SameStores.setPpu (p := { s1.ppu with ly := 0 }) (compareLy_stores _) rfl rfl).inv hs1
    · exact hs1
  exact (lineEnd_stores _).inv hs2

theorem memoryInv_cycles {n : Nat} {s t : State} (h : ppuCycles n s = .ok t) (hm : MemoryInv s) : MemoryInv t := by
  induction n generalizing s with
  | zero => cases h; exact hm
  | succ n ih =>
    obtain ⟨s1, h1, h⟩ := bind_eq_ok.mp h
    exact ih h (memoryInv_cycle h1 hm)

theorem envelope_wave (a : Apu) : a.envelope1.envelope2.envelope4.waveRam = a.waveRam := by
  unfold Apu.envelope4
  split
  · unfold Apu.envelope2
    split
    · unfold Apu.envelope1; split <;> rfl
    · unfold Apu.envelope1; split <;> rfl
  · show (Apu.envelope2 _).waveRam = _
    unfold Apu.envelope2
    split
    · unfold Apu.envelope1; split <;> rfl
    · unfold Apu.envelope1; split <;> rfl

theorem sequencerAt_wave (p : Nat) (a : Apu) : (a.sequencerAt p).waveRam = a.waveRam := by
  unfold Apu.sequencerAt
  split <;> first | rfl | exact envelope_wave a

theorem apuCycle_wave (a : Apu) : a.cycle.waveRam = a.waveRam := by
  show a.sequencerCycle.waveRam = a.waveRam
  unfold Apu.sequencerCycle
  split
  · exact sequencerAt_wave _ _
  · rfl

theorem apuCycles_wave (n : Nat) (a : Apu) : (Apu.cycles n a).waveRam = a.waveRam := by
  induction n generalizing a with
  | zero => rfl
  | succ n ih => exact (ih _).trans (apuCycle_wave a)

theorem advance_wave (n : Nat) (a : Apu) : (a.advance n).waveRam = a.waveRam := by
  unfold Apu.advance
  split
  · exact apuCycles_wave n a
  · rfl

/-- `Tick` keeps every store in canonical form. -/
theorem memoryInv_tick {n : Nat} {s t : State} (h : tick n s = .ok t) (hm : MemoryInv s) : MemoryInv t := by
  obtain ⟨s1, h1, h⟩ := bind_eq_ok.mp h
  cases h
  have hs1 : MemoryInv s1 := by
    unfold ppuAdvance at h1
    split at h1
    · exact memoryInv_cycles h1 hm
    · cases h1; exact hm
  refine SameStores.inv ?_ hs1
  exact ⟨by simp, by simp, by simp, by simp, by simp, by simp, by simp [advance_wave], by simp, by simp⟩

end Sys2Proof.Machine
end

