-- ==== Sys2Proof/Laws/Transfer.lean ====
section
/-! SUPPORT. What a video DMA copies and where its addresses go (spec/20_memory.md R99). -/

namespace Sys2Proof.Machine

/-- Both addresses advance by the number of bytes copied; the other bus registers stay. -/
theorem hdmaCopy_bus {n : Nat} {s t : State} (h : hdmaCopy n s = .ok t) :
    t.bus = { s.bus with hdmaSrc := s.bus.hdmaSrc + BitVec.ofNat 16 n,
                         hdmaDst := s.bus.hdmaDst + BitVec.ofNat 13 n } := by
  induction n generalizing s with
  | zero => cases h; simp
  | succ n ih =>
    obtain ⟨b, -, h⟩ := bind_eq_ok.mp h
    rw [ih h]
    have e1 : s.bus.hdmaSrc + 1 + BitVec.ofNat 16 n = s.bus.hdmaSrc + BitVec.ofNat 16 (n + 1) := by bv_omega
    have e2 : s.bus.hdmaDst + 1 + BitVec.ofNat 13 n = s.bus.hdmaDst + BitVec.ofNat 13 (n + 1) := by bv_omega
    simp only [e1, e2]

/-- The state after the first byte `b` of a copy. -/
def copied (s : State) (b : Byte) : State :=
  { s with vram := s.vram.write (vramIndex s s.bus.hdmaDst.toNat) b,
           bus := { s.bus with hdmaSrc := s.bus.hdmaSrc + 1, hdmaDst := s.bus.hdmaDst + 1 } }

/-- A copied byte changes no read but that of its destination. -/
theorem readWith_copied {s : State} {a : Word} (b : Byte) (h : ∀ off, region a = .vram off → off ≠ s.bus.hdmaDst.toNat) :
    readWith false (copied s b) a = readWith false s a := by
  unfold readWith
  cases hr : region a <;> try rfl
  case vram off =>
    simp only [Bool.false_and, Bool.false_eq_true, if_false]
    rw [show vramIndex (copied s b) off = vramIndex s off from rfl]
    show Except.ok ((s.vram.write _ b).read _) = _
    rw [Memory.read_write_other]
    exact fun hc => h off hr (Nat.add_left_cancel hc)

/-- No byte of a copy is read where an earlier one was written. -/
def Apart (n : Nat) (s : State) : Prop :=
  ∀ i k, k < i → i < n → ∀ off, region (s.bus.hdmaSrc + BitVec.ofNat 16 i) = .vram off →
    off ≠ (s.bus.hdmaDst + BitVec.ofNat 13 k).toNat

theorem Apart.next {n : Nat} {s : State} (h : Apart (n + 1) s) (b : Byte) : Apart n (copied s b) := by
  intro i k hk hi off hr
  have e1 : s.bus.hdmaSrc + 1 + BitVec.ofNat 16 i = s.bus.hdmaSrc + BitVec.ofNat 16 (i + 1) := by bv_omega
  have e2 : s.bus.hdmaDst + 1 + BitVec.ofNat 13 k = s.bus.hdmaDst + BitVec.ofNat 13 (k + 1) := by bv_omega
  have := h (i + 1) (k + 1) (by omega) (by omega) off (e1 ▸ hr)
  rwa [← e2] at this

/-- In a copy whose reads are apart from its writes, the read of byte `i + 1` is not changed by byte 0. -/
theorem Apart.read {n : Nat} {s : State} (h : Apart (n + 1) s) (b : Byte) {i : Nat} (hi : i < n) :
    readWith false (copied s b) ((copied s b).bus.hdmaSrc + BitVec.ofNat 16 i) =
      readWith false s (s.bus.hdmaSrc + BitVec.ofNat 16 (i + 1)) := by
  rw [show (copied s b).bus.hdmaSrc + BitVec.ofNat 16 i = s.bus.hdmaSrc + BitVec.ofNat 16 (i + 1) by
    show s.bus.hdmaSrc + 1 + _ = _; bv_omega]
  exact readWith_copied b fun off hr => by simpa using h (i + 1) 0 (by omega) (by omega) off hr

/-- A copy whose reads are apart from its writes leaves at each destination the byte its source had before the copy,
and changes no other byte of video RAM. -/
theorem hdmaCopy_apart {n : Nat} {s : State} (h : Apart n s) (hn : n ≤ 8192) (hw : s.vram.wf = true)
    (hr : ∀ i, i < n → ∃ b, readWith false s (s.bus.hdmaSrc + BitVec.ofNat 16 i) = .ok b) :
    ∃ m, hdmaCopy n s = .ok { s with
        vram := m
        bus := { s.bus with hdmaSrc := s.bus.hdmaSrc + BitVec.ofNat 16 n, hdmaDst := s.bus.hdmaDst + BitVec.ofNat 13 n } } ∧
      (∀ i, i < n → readWith false s (s.bus.hdmaSrc + BitVec.ofNat 16 i) =
        .ok (m.read (vramIndex s (s.bus.hdmaDst + BitVec.ofNat 13 i).toNat))) ∧
      ∀ o, (∀ i, i < n → o ≠ vramIndex s (s.bus.hdmaDst + BitVec.ofNat 13 i).toNat) → m.read o = s.vram.read o := by
  induction n generalizing s with
  | zero => exact ⟨s.vram, by simp [hdmaCopy], fun i hi => absurd hi (Nat.not_lt_zero i), fun _ _ => rfl⟩
  | succ n ih =>
    obtain ⟨b, hb⟩ := hr 0 (Nat.succ_pos n)
    simp only [BitVec.add_zero] at hb
    obtain ⟨m, h1, h2, h3⟩ := ih (h.next b) (by omega) (Memory.wf_write _ b hw) fun i hi => by
      rw [h.read b hi]
      exact hr (i + 1) (by omega)
    have e1 : s.bus.hdmaSrc + 1 + BitVec.ofNat 16 n = s.bus.hdmaSrc + BitVec.ofNat 16 (n + 1) := by bv_omega
    have e2 : ∀ i, s.bus.hdmaDst + 1 + BitVec.ofNat 13 i = s.bus.hdmaDst + BitVec.ofNat 13 (i + 1) := by
      intro i; bv_omega
    have h2' : ∀ i, i < n → readWith false s (s.bus.hdmaSrc + BitVec.ofNat 16 (i + 1)) =
        .ok (m.read (vramIndex s (s.bus.hdmaDst + BitVec.ofNat 13 (i + 1)).toNat)) := by
      intro i hi
      rw [← h.read b hi, h2 i hi, ← e2]; rfl
    have h3' : ∀ o, (∀ i, i < n → o ≠ vramIndex s (s.bus.hdmaDst + BitVec.ofNat 13 (i + 1)).toNat) →
        m.read o = (copied s b).vram.read o := by
      intro o ho
      refine h3 o fun i hi => ?_
      have := ho i hi
      rwa [← e2] at this
    refine ⟨m, ?_, ?_, ?_⟩
    · unfold hdmaCopy
      rw [hb, bind_ok]
      show hdmaCopy n (copied s b) = _
      rw [h1, ← e1, ← e2]; rfl
    · intro i hi
      cases i with
      | succ i => exact h2' i (by omega)
      | zero =>
        simp only [BitVec.add_zero]
        rw [hb, h3']
        · exact congrArg Except.ok (Memory.read_write_same _ b hw).symm
        · intro i hi hc
          have := Nat.add_left_cancel hc
          have hd := s.bus.hdmaDst.isLt
          rw [BitVec.toNat_add, BitVec.toNat_ofNat] at this
          omega
    · intro o ho
      rw [h3' o fun i hi => ho (i + 1) (by omega)]
      exact Memory.read_write_other b (by simpa using ho 0 (Nat.succ_pos n))

/-- Such a copy ends in the fault of the first read that fails. -/
theorem hdmaCopy_apart_error {n : Nat} {s : State} {e : Fault} (h : Apart n s) {k : Nat} (hk : k < n)
    (he : readWith false s (s.bus.hdmaSrc + BitVec.ofNat 16 k) = .error e)
    (hr : ∀ i, i < k → ∃ b, readWith false s (s.bus.hdmaSrc + BitVec.ofNat 16 i) = .ok b) : hdmaCopy n s = .error e := by
  induction n generalizing s k with
  | zero => exact absurd hk (Nat.not_lt_zero k)
  | succ n ih =>
    unfold hdmaCopy
    cases k with
    | zero =>
      simp only [BitVec.add_zero] at he
      rw [he]; rfl
    | succ k =>
      obtain ⟨b, hb⟩ := hr 0 (Nat.succ_pos k)
      simp only [BitVec.add_zero] at hb
      rw [hb, bind_ok]
      refine ih (s := copied s b) (h.next b) (k := k) (by omega) ?_ ?_
      · rw [h.read b (by omega)]; exact he
      · intro i hi
        rw [h.read b (by omega)]
        exact hr (i + 1) (by omega)

/-- A block with aligned addresses is read apart from what it writes (R99: the low 4 bits of both are zero). -/
theorem apart_aligned {s : State} (h1 : s.bus.hdmaSrc.toNat % 16 = 0) (h2 : s.bus.hdmaDst.toNat % 16 = 0) :
    Apart 16 s := by
  intro i k hk hi off hr
  have ha : ∀ a : Nat, regionOf a = .vram off → a = 0x8000 + off ∧ a < 0xA000 := by
    intro a h
    unfold regionOf at h
    repeat' split at h
    all_goals first | (injection h with h; omega) | cases h
  obtain ⟨e, hlt⟩ := ha _ hr
  have hu : (s.bus.hdmaSrc + BitVec.ofNat 16 i).toNat = 0x8000 + off := by
    revert e hlt
    unfold unecho
    split <;> omega
  have hd : (s.bus.hdmaDst + BitVec.ofNat 13 k).toNat = s.bus.hdmaDst.toNat + k := by
    rw [BitVec.toNat_add, BitVec.toNat_ofNat]
    have := s.bus.hdmaDst.isLt
    omega
  rw [BitVec.toNat_add, BitVec.toNat_ofNat] at hu
  have := s.bus.hdmaSrc.isLt
  omega

end Sys2Proof.Machine
end

