-- ==== Sys2Proof/Laws/Ranges.lean ====
section
/-! SUPPORT. The other ranges of Safety.lean: sound, screen, timer, serial port, clock, bank controller and the
monochrome restrictions, each by a bus write and by `Tick`. -/

namespace Sys2Proof.Machine

/-! ### Where a bus write can land -/

/-- The ways a bus write answers a state: it changes no more than stores, or it is a controller, window or register
write. -/
theorem writeByte_cases {a : Word} {v : Byte} {s t : State} (h : writeByte s a v = .ok t) :
    (t = { s with vram := t.vram, wram := t.wram, oam := t.oam, hram := t.hram, ieReg := t.ieReg }) ∨
    (∃ off, t = writeController s off v) ∨ (∃ off, t = writeWindow s off v) ∨
    (∃ n r, ioReg s.cart.colorMode n = some r ∧ writeIo r v s = .ok t) := by
  unfold writeByte at h
  cases hr : region a <;> rw [hr] at h <;> simp only [] at h
  case romFixed => cases h; exact .inr (.inl ⟨_, rfl⟩)
  case romBanked => cases h; exact .inr (.inl ⟨_, rfl⟩)
  case vram => cases h; split <;> exact .inl rfl
  case cartRam => cases h; exact .inr (.inr (.inl ⟨_, rfl⟩))
  case wramFixed => cases h; exact .inl rfl
  case wramBanked => cases h; exact .inl rfl
  case oam => cases h; split <;> exact .inl rfl
  case nothing => rw [writeUnmapped_eq h]; exact .inl rfl
  case io =>
    split at h
    · exact .inr (.inr (.inr ⟨_, _, ‹_›, h⟩))
    · rw [writeUnmapped_eq h]; exact .inl rfl
  case hram => cases h; exact .inl rfl
  case ie => cases h; exact .inl rfl

/-- The ways a register write answers a state (R92). -/
theorem writeIo_cases {r : IoReg} {v : Byte} {s t : State} (h : writeIo r v s = .ok t) :
    (r = .dma ∧ writeDma v s = .ok t) ∨ (r = .hdma5 ∧ writeHdma5 v s = .ok t) ∨
      (r ≠ .dma ∧ r ≠ .hdma5 ∧ t = writeIoPlain r v s) := by
  unfold writeIo at h
  split at h
  · exact .inl ⟨‹_›, h⟩
  · split at h
    · exact .inr (.inl ⟨‹_›, h⟩)
    · cases h; exact .inr (.inr ⟨‹_›, ‹_›, rfl⟩)

/-! ### Sound -/

theorem writeHdma5_apu' {v : Byte} {s t : State} (h : writeHdma5 v s = .ok t) : t.apu = s.apu := by
  unfold writeHdma5 at h
  split at h
  · obtain ⟨s1, h1, h⟩ := bind_eq_ok.mp h
    cases h
    show s1.apu = s.apu
    rw [hdmaCopy_apu h1]; simp
  all_goals cases h; rfl

theorem soundInv_bus {a : Word} {v : Byte} {s t : State} (h : writeByte s a v = .ok t) (hi : SoundInv s.apu) :
    SoundInv t.apu := by
  rcases writeByte_cases h with h | ⟨off, rfl⟩ | ⟨off, rfl⟩ | ⟨n, r, _, h⟩
  · rw [h]; exact hi
  · simpa using hi
  · simpa using hi
  · rcases writeIo_cases h with ⟨_, h⟩ | ⟨_, h⟩ | ⟨_, _, rfl⟩
    · rw [writeDma_apu h]; exact hi
    · rw [writeHdma5_apu' h]; exact hi
    · cases r <;> simp only [writeIoPlain]
      case sound => exact soundInv_write _ _ v hi
      case nr52 => exact soundInv_master _ v hi
      case wave i => exact hi
      case p1 => simpa using hi
      all_goals simpa using hi

theorem soundInv_tick {n : Nat} {s t : State} (h : tick n s = .ok t) (hi : SoundInv s.apu) : SoundInv t.apu := by
  obtain ⟨s1, h1, h⟩ := bind_eq_ok.mp h
  cases h
  have : s1.apu = s.apu := ppuAdvance_apu h1
  simp only [serialAdvance_apu, timerAdvance_apu, divAdvance_apu]
  show SoundInv (s1.apu.advance _)
  rw [this]
  exact soundInv_advance _ hi

/-! ### The screen -/

/-- `ScreenInv` on the picture generator. -/
structure ScreenOk (p : Ppu) : Prop where
  buf : p.lineBuf.length = 160
  frame : FrameSize p.frame
  sprites : p.spriteList.length ≤ 10
  rendered : p.renderedX ≤ 160

theorem screenInv_iff (s : State) : ScreenInv s ↔ ScreenOk s.ppu :=
  ⟨fun ⟨a, b, c, d, e⟩ => ⟨a, ⟨b, c⟩, d, e⟩, fun ⟨a, ⟨b, c⟩, d, e⟩ => ⟨a, b, c, d, e⟩⟩

theorem screenOk_renderSoFar {s : State} (h : ScreenOk s.ppu) : ScreenOk (renderSoFar s).ppu := by
  obtain ⟨lb, rx, he, hl, hr⟩ := renderSoFar_eq s
  rw [he]
  refine ⟨hl.trans h.buf, h.frame, h.sprites, ?_⟩
  have := h.rendered
  show rx ≤ 160
  omega

theorem screenOk_enterMode0 {s t : State} (he : enterMode0 s = .ok t) (h : ScreenOk s.ppu) : ScreenOk t.ppu := by
  obtain ⟨lb, rx, fr, hp, hl, hr, hf⟩ := enterMode0_ppu he
  rw [hp]
  refine ⟨hl.trans h.buf, hf h.buf h.frame, h.sprites, ?_⟩
  have := h.rendered
  show rx ≤ 160
  omega

theorem screenOk_enterMode2 {s : State} (h : ScreenOk s.ppu) : ScreenOk (enterMode2 s).ppu := by
  rw [enterMode2_ppu]; exact ⟨h.buf, h.frame, h.sprites, Nat.zero_le _⟩

theorem screenOk_displayOff {s : State} (h : ScreenOk s.ppu) : ScreenOk (displayOff s).ppu := by
  refine ⟨h.buf, ⟨?_, ?_⟩, h.sprites, Nat.zero_le _⟩
  · exact (List.length_map ..).trans h.frame.1
  · intro row hm
    obtain ⟨r, hr, rfl⟩ := List.mem_map.mp hm
    exact (List.length_map ..).trans (h.frame.2 r hr)

theorem screenOk_writeLcdc (v : Byte) {s : State} (h : ScreenOk s.ppu) : ScreenOk (writeLcdc v s).ppu := by
  have hr := screenOk_renderSoFar h
  have h2 : ScreenOk (setPpu { (renderSoFar s).ppu with lcdc := v } (renderSoFar s)).ppu :=
    ⟨hr.buf, hr.frame, hr.sprites, hr.rendered⟩
  unfold writeLcdc
  simp only []
  split
  · exact screenOk_displayOff h2
  · rw [displayOn_ppu']; exact ⟨h2.buf, h2.frame, h2.sprites, Nat.zero_le _⟩
  · exact h2
where
  displayOn_ppu' (s : State) :
      (displayOn s).ppu = { s.ppu with line := 0, ly := 0, lineCycle := 0, mode := .oamScan, renderedX := 0 } := by
    unfold displayOn
    rw [compareLy_ppu, enterMode2_ppu]; rfl

theorem screenOk_plainIo (r : IoReg) (v : Byte) {s : State} (h : ScreenOk s.ppu) : ScreenOk (writeIoPlain r v s).ppu := by
  have hr := screenOk_renderSoFar h
  cases r <;> simp only [writeIoPlain]
  case lcdc => exact screenOk_writeLcdc v h
  case scy => exact ⟨hr.buf, hr.frame, hr.sprites, hr.rendered⟩
  case scx => exact ⟨hr.buf, hr.frame, hr.sprites, hr.rendered⟩
  case bgp => exact ⟨hr.buf, hr.frame, hr.sprites, hr.rendered⟩
  case obp0 => exact ⟨hr.buf, hr.frame, hr.sprites, hr.rendered⟩
  case obp1 => exact ⟨hr.buf, hr.frame, hr.sprites, hr.rendered⟩
  case wy => exact ⟨hr.buf, hr.frame, hr.sprites, hr.rendered⟩
  case wx => exact ⟨hr.buf, hr.frame, hr.sprites, hr.rendered⟩
  case bcpd => exact ⟨hr.buf, hr.frame, hr.sprites, hr.rendered⟩
  case bcps => exact ⟨h.buf, h.frame, h.sprites, h.rendered⟩
  case ocps => exact ⟨h.buf, h.frame, h.sprites, h.rendered⟩
  case ocpd => exact ⟨h.buf, h.frame, h.sprites, h.rendered⟩
  case stat => exact ⟨h.buf, h.frame, h.sprites, h.rendered⟩
  case lyc =>
    unfold writeLyc
    simp only []
    split
    · rw [compareLy_ppu]; exact ⟨h.buf, h.frame, h.sprites, h.rendered⟩
    · exact ⟨h.buf, h.frame, h.sprites, h.rendered⟩
  all_goals simpa using h

theorem screenInv_write {a : Word} {v : Byte} {s t : State} (h : writeByte s a v = .ok t) (hi : ScreenInv s) :
    ScreenInv t := by
  rw [screenInv_iff] at *
  rcases writeByte_cases h with h | ⟨off, rfl⟩ | ⟨off, rfl⟩ | ⟨n, r, _, h⟩
  · rw [h]; exact hi
  · simpa using hi
  · simpa using hi
  · rcases writeIo_cases h with ⟨_, h⟩ | ⟨_, h⟩ | ⟨_, _, rfl⟩
    · rw [writeDma_ppu h]; exact hi
    · unfold writeHdma5 at h
      split at h
      · obtain ⟨s1, h1, h⟩ := bind_eq_ok.mp h
        cases h
        show ScreenOk s1.ppu
        rw [hdmaCopy_ppu h1]; exact screenOk_renderSoFar hi
      all_goals cases h; exact hi
    · exact screenOk_plainIo r v hi

theorem screenOk_cycle {s t : State} (h : ppuCycle s = .ok t) (hi : ScreenOk s.ppu) : ScreenOk t.ppu := by
  obtain ⟨s1, h1, h⟩ := bind_eq_ok.mp h
  cases h
  have h0 : ScreenOk (setPpu { s.ppu with lineCycle := s.ppu.lineCycle + 1 } s).ppu :=
    ⟨hi.buf, hi.frame, hi.sprites, hi.rendered⟩
  have hs1 : ScreenOk s1.ppu := by
    unfold lineEvents at h1
    split at h1
    · have h3 : ScreenOk (mode3At80 (setPpu { s.ppu with lineCycle := s.ppu.lineCycle + 1 } s)).ppu := by
        unfold mode3At80
        split
        · rw [enterMode3_ppu]
          exact ⟨h0.buf, h0.frame, List.length_take_le _ _, h0.rendered⟩
        · exact h0
      unfold mode0AtEnd at h1
      split at h1
      · exact screenOk_enterMode0 h1 h3
      · cases h1; exact h3
    · cases h1; exact h0
  have hs2 : ScreenOk (line153Event s1).ppu := by
    rw [line153Event_ppu]
    split
    · exact ⟨hs1.buf, hs1.frame, hs1.sprites, hs1.rendered⟩
    · exact hs1
  unfold lineEnd
  split
  · unfold nextLine
    split
    · exact screenOk_enterMode2 ⟨hs2.buf, hs2.frame, hs2.sprites, hs2.rendered⟩
    · have ha : ScreenOk (advanceLine (line153Event s1)).ppu := by
        unfold advanceLine
        rw [compareLy_ppu]
        exact ⟨hs2.buf, hs2.frame, hs2.sprites, hs2.rendered⟩
      unfold startLine
      split
      · exact screenOk_enterMode2 ha
      · split
        · rw [enterMode1_ppu]; exact ⟨ha.buf, ha.frame, ha.sprites, ha.rendered⟩
        · exact ha
  · exact hs2

theorem screenInv_tick {n : Nat} {s t : State} (h : tick n s = .ok t) (hi : ScreenInv s) : ScreenInv t := by
  rw [screenInv_iff] at *
  have hc : ∀ n (s t : State), ppuCycles n s = .ok t → ScreenOk s.ppu → ScreenOk t.ppu := by
    intro n
    induction n with
    | zero => intro s t h hi; cases h; exact hi
    | succ n ih =>
      intro s t h hi
      obtain ⟨s1, h1, h⟩ := bind_eq_ok.mp h
      exact ih _ _ h (screenOk_cycle h1 hi)
  obtain ⟨s1, h1, h⟩ := bind_eq_ok.mp h
  cases h
  have hs1 : ScreenOk s1.ppu := by
    unfold ppuAdvance at h1
    split at h1
    · exact hc _ _ _ h1 hi
    · cases h1; exact hi
  simpa using hs1

/-! ### Timer and serial port -/

theorem tacPeriod_pos (t : BitVec 3) : 0 < tacPeriod t := by
  unfold tacPeriod
  split <;> decide

theorem timerInv_timerAdvance (n : Nat) (s : State) : TimerInv (timerAdvance n s) := by
  unfold TimerInv timerAdvance
  split
  · intro _
    simp only [requestIf_timer]
    exact Nat.mod_lt _ (tacPeriod_pos _)
  · intro h
    exact absurd h ‹_›

/-- Whatever was written to the timer registers, after a tick the count is below the period. -/
theorem timerInv_tick {n : Nat} {s t : State} (h : tick n s = .ok t) : TimerInv t := by
  obtain ⟨s1, h1, h⟩ := bind_eq_ok.mp h
  cases h
  have := timerInv_timerAdvance n (divAdvance n (setApu (s1.apu.advance (generatorCycles n s)) s1))
  unfold TimerInv at *
  rw [serialAdvance_timer]
  exact this

/-- The serial port as `SerialInv` says. -/
structure SerialOk (p : Serial) : Prop where
  period : p.period = 512 ∨ p.period = 16
  bound : p.timer ≤ 8 * p.period
  run : 0 < p.timer ↔ (p.scStart = true ∧ p.scInternal = true)

theorem serialInv_iff (s : State) : SerialInv s ↔ SerialOk s.serial :=
  ⟨fun ⟨a, b, c⟩ => ⟨a, b, c⟩, fun ⟨a, b, c⟩ => ⟨a, b, c⟩⟩

theorem serialOk_writeSc (v : Byte) {s : State} (h : SerialOk s.serial) : SerialOk (writeSc v s).serial := by
  unfold writeSc
  simp only []
  split
  · rename_i hv
    simp only [Bool.and_eq_true] at hv
    refine ⟨?_, Nat.le_refl _, ?_⟩
    · show (if _ then 16 else 512) = 512 ∨ (if _ then 16 else 512) = 16
      split
      · exact .inr rfl
      · exact .inl rfl
    · refine ⟨fun _ => ⟨rfl, hv.2⟩, fun _ => ?_⟩
      show 0 < 8 * (if _ then 16 else 512)
      split <;> decide
  · rename_i hv
    refine ⟨h.period, Nat.zero_le _, ⟨fun hc => absurd hc (Nat.lt_irrefl 0), fun hc => ?_⟩⟩
    exact absurd (by simpa using hc) hv

theorem serialInv_write {a : Word} {v : Byte} {s t : State} (h : writeByte s a v = .ok t) (hi : SerialInv s) :
    SerialInv t := by
  rw [serialInv_iff] at *
  rcases writeByte_cases h with h | ⟨off, rfl⟩ | ⟨off, rfl⟩ | ⟨n, r, _, h⟩
  · rw [h]; exact hi
  · simpa using hi
  · simpa using hi
  · rcases writeIo_cases h with ⟨_, h⟩ | ⟨_, h⟩ | ⟨_, _, rfl⟩
    · rw [writeDma_serial h]; exact hi
    · unfold writeHdma5 at h
      split at h
      · obtain ⟨s1, h1, h⟩ := bind_eq_ok.mp h
        cases h
        show SerialOk s1.serial
        rw [hdmaCopy_serial h1]; simpa using hi
      all_goals cases h; exact hi
    · cases r <;> simp only [writeIoPlain]
      case sc => exact serialOk_writeSc v hi
      case sb => exact ⟨hi.period, hi.bound, hi.run⟩
      all_goals simpa using hi

theorem serialOk_advance (n : Nat) {s : State} (h : SerialOk s.serial) : SerialOk (serialAdvance n s).serial := by
  unfold serialAdvance
  simp only []
  split
  · rename_i hpos
    split
    · rename_i h0
      refine ⟨h.period, ?_, ⟨fun hc => ?_, fun hc => ?_⟩⟩
      · show s.serial.timer - n ≤ 8 * s.serial.period
        have := h.bound
        omega
      · have hc' : 0 < s.serial.timer - n := hc
        omega
      · exact absurd (show false = true from hc.1) (by decide)
    · rename_i h0
      refine ⟨h.period, ?_, ⟨fun _ => h.run.mp hpos, fun _ => ?_⟩⟩
      · show s.serial.timer - n ≤ 8 * s.serial.period
        have := h.bound
        omega
      · show 0 < s.serial.timer - n
        omega
  · exact h

theorem serialInv_tick {n : Nat} {s t : State} (h : tick n s = .ok t) (hi : SerialInv s) : SerialInv t := by
  rw [serialInv_iff] at *
  obtain ⟨s1, h1, h⟩ := bind_eq_ok.mp h
  cases h
  apply serialOk_advance
  simpa [ppuAdvance_serial h1] using hi

/-! ### The clock and the bank controller -/

theorem rtcInv_write {a : Word} {v : Byte} {s t : State} (h : writeByte s a v = .ok t) (hi : RtcInv s) : RtcInv t := by
  obtain ⟨⟨h1, h2, h3⟩, hl⟩ := hi
  rcases writeByte_cases h with h | ⟨off, rfl⟩ | ⟨off, rfl⟩ | ⟨n, r, _, h⟩
  · unfold RtcInv; rw [h]; exact ⟨⟨h1, h2, h3⟩, hl⟩
  · unfold writeController
    have hw : (writeLatch v s.rtc).live.inRange ∧ (writeLatch v s.rtc).latched.inRange := by
      unfold writeLatch
      split
      · exact ⟨⟨h1, h2, h3⟩, ⟨h1, h2, h3⟩⟩
      · exact ⟨⟨h1, h2, h3⟩, hl⟩
    repeat' split
    all_goals first | exact ⟨⟨h1, h2, h3⟩, hl⟩ | exact hw
  · unfold writeWindow
    split
    case h_4 =>
      split
      · exact ⟨⟨‹_›, h2, h3⟩, hl⟩
      · exact ⟨⟨h1, h2, h3⟩, hl⟩
    case h_5 =>
      split
      · exact ⟨⟨h1, ‹_›, h3⟩, hl⟩
      · exact ⟨⟨h1, h2, h3⟩, hl⟩
    case h_6 =>
      split
      · exact ⟨⟨h1, h2, ‹_›⟩, hl⟩
      · exact ⟨⟨h1, h2, h3⟩, hl⟩
    all_goals exact ⟨⟨h1, h2, h3⟩, hl⟩
  · unfold RtcInv; rw [writeIo_rtc h]; exact ⟨⟨h1, h2, h3⟩, hl⟩

theorem rtcInv_tick {n : Nat} {s t : State} (h : tick n s = .ok t) (hi : RtcInv s) : RtcInv t := by
  unfold RtcInv; rw [tick_rtc h]; exact hi

/-- `MbcInv` on the controller of a family. -/
def MbcOk (kind : MbcKind) (m : Mbc) : Prop :=
  match kind with
  | .none => True
  | .mbc1 => m.romLo.toNat < 32
  | .mbc2 => m.romLo.toNat < 16
  | .mbc3 => m.romLo.toNat < 128
  | .mbc5 => True
  | .mbc5r => m.ramSelect.toNat < 8

theorem mbcInv_iff (s : State) : MbcInv s ↔ MbcOk s.cart.kind s.mbc := Iff.rfl

theorem and_lt (v : Byte) : (v &&& 0x1F#8).toNat < 32 ∧ (v &&& 0x0F#8).toNat < 16 ∧ (v &&& 0x7F#8).toNat < 128 ∧
    ((v &&& 0x07#8).extractLsb' 0 4).toNat < 8 := by
  refine ⟨?_, ?_, ?_, ?_⟩
  · rw [BitVec.toNat_and]; exact Nat.lt_of_le_of_lt Nat.and_le_right (by decide)
  · rw [BitVec.toNat_and]; exact Nat.lt_of_le_of_lt Nat.and_le_right (by decide)
  · rw [BitVec.toNat_and]; exact Nat.lt_of_le_of_lt Nat.and_le_right (by decide)
  · rw [BitVec.extractLsb'_toNat, BitVec.toNat_and]
    refine Nat.lt_of_le_of_lt (Nat.mod_le _ _) ?_
    rw [Nat.shiftRight_zero]
    exact Nat.lt_of_le_of_lt Nat.and_le_right (by decide)

theorem mbcOk_controller (s : State) (a : Nat) (v : Byte) (h : MbcOk s.cart.kind s.mbc) :
    MbcOk s.cart.kind (writeController s a v).mbc := by
  obtain ⟨b1, b2, b3, b4⟩ := and_lt v
  unfold writeController
  split
  · revert h
    show MbcOk _ s.mbc → MbcOk _ (writeRamEnable _ v s.mbc)
    cases s.cart.kind <;> exact id
  · split
    · revert h
      show MbcOk _ s.mbc → MbcOk _ (writeRomSelect _ _ v s.mbc)
      generalize decide (0x3000 ≤ a) = u
      cases s.cart.kind <;> cases u <;> intro h <;> first | exact h | exact b1 | exact b2 | exact b3
    · split
      · revert h
        show MbcOk _ s.mbc → MbcOk _ (writeRamSelect _ v s.mbc)
        cases s.cart.kind <;> intro h <;> first | exact h | exact b4
      · split
        · exact h
        · revert h
          show MbcOk _ s.mbc → MbcOk _ (writeBankMode _ v s.mbc)
          cases s.cart.kind <;> exact id

theorem mbcInv_write {a : Word} {v : Byte} {s t : State} (h : writeByte s a v = .ok t) (hi : MbcInv s) : MbcInv t := by
  have hc := writeByte_cart h
  rw [mbcInv_iff] at *
  rw [hc]
  rcases writeByte_cases h with h | ⟨off, rfl⟩ | ⟨off, rfl⟩ | ⟨n, r, _, h⟩
  · rw [h]; exact hi
  · exact mbcOk_controller s off v hi
  · rw [writeWindow_mbc]; exact hi
  · rw [writeIo_mbc h]; exact hi

theorem mbcInv_tick {n : Nat} {s t : State} (h : tick n s = .ok t) (hi : MbcInv s) : MbcInv t := by
  rw [mbcInv_iff] at *
  rw [tick_cart h, tick_mbc h]; exact hi

/-! ### The monochrome restrictions -/

/-- In monochrome mode the color-mode state beyond the processor is at its reset value (R38, R96, R99). -/
def MonoBeyond (s : State) : Prop :=
  s.cart.colorMode = false →
    s.key1Armed = false ∧ s.bus.vbank = false ∧ s.bus.svbk = 0 ∧ s.bus.hdmaActive = false

theorem monoInv_iff (s : State) :
    MonoInv s ↔ (s.cart.colorMode = false → s.cpu.speedShift = false) ∧ MonoBeyond s :=
  ⟨fun h => ⟨fun hc => (h hc).1, fun hc => (h hc).2⟩, fun ⟨h1, h2⟩ hc => ⟨h1 hc, h2 hc⟩⟩

theorem ioReg_mono {n : Nat} {r : IoReg} (h : ioReg false n = some r) : r.colorOnly = false := by
  unfold ioReg at h
  have := (Option.filter_eq_some_iff.mp h).2
  simpa using this

theorem monoBeyond_write {a : Word} {v : Byte} {s t : State} (h : writeByte s a v = .ok t) (hi : MonoBeyond s) :
    MonoBeyond t := by
  intro hc
  rw [writeByte_cart h] at hc
  obtain ⟨k1, k2, k3, k4⟩ := hi hc
  rcases writeByte_cases h with h | ⟨off, rfl⟩ | ⟨off, rfl⟩ | ⟨n, r, hr, h⟩
  · rw [h]; exact ⟨k1, k2, k3, k4⟩
  · simpa using ⟨k1, k2, k3, k4⟩
  · simpa using ⟨k1, k2, k3, k4⟩
  · rw [hc] at hr
    have hm := ioReg_mono hr
    rcases writeIo_cases h with ⟨_, h⟩ | ⟨rfl, h⟩ | ⟨_, _, rfl⟩
    · unfold writeDma at h
      split at h
      · rw [oamCopy_key1Armed h, oamCopy_bus h]; exact ⟨k1, k2, k3, k4⟩
      · cases h; exact ⟨k1, k2, k3, k4⟩
    · exact absurd hm (by decide)
    · cases r <;> first | (exact absurd hm (by decide)) | skip
      all_goals simpa [writeIoPlain] using ⟨k1, k2, k3, k4⟩

/-- `Tick` changes the bus registers only through the block copied on an entry to mode 0: what that keeps of them, a
tick keeps. -/
theorem tick_bus_keeps {P : BusRegs → Prop} (hP : ∀ s t : State, hdmaAtMode0 s = .ok t → P s.bus → P t.bus)
    {n : Nat} {s t : State} (h : tick n s = .ok t) (hi : P s.bus) : P t.bus := by
  have h1 : ∀ s t : State, enterMode0 s = .ok t → P s.bus → P t.bus := by
    intro s t h hi
    obtain ⟨s1, h1, h⟩ := bind_eq_ok.mp h
    cases h
    rw [requestIf_bus]
    exact hP _ _ h1 (by simpa using hi)
  have h2 : ∀ s t : State, ppuCycle s = .ok t → P s.bus → P t.bus := by
    intro s t h hi
    obtain ⟨s1, h2, h⟩ := bind_eq_ok.mp h
    cases h
    have e : P s1.bus := by
      unfold lineEvents at h2
      split at h2
      · unfold mode0AtEnd at h2
        split at h2
        · exact h1 _ _ h2 (by simpa using hi)
        · cases h2; simpa using hi
      · cases h2; simpa using hi
    simpa using e
  have h3 : ∀ n (s t : State), ppuCycles n s = .ok t → P s.bus → P t.bus := by
    intro n
    induction n with
    | zero => intro s t h hi; cases h; exact hi
    | succ n ih =>
      intro s t h hi
      obtain ⟨s1, h1, h⟩ := bind_eq_ok.mp h
      exact ih _ _ h (h2 _ _ h1 hi)
  obtain ⟨s1, h4, h⟩ := bind_eq_ok.mp h
  cases h
  have e : P s1.bus := by
    unfold ppuAdvance at h4
    split at h4
    · exact h3 _ _ _ h4 hi
    · cases h4; exact hi
  simpa using e

/-- With no transfer active, a tick leaves the bus registers alone. -/
theorem tick_bus {n : Nat} {s t : State} (h : tick n s = .ok t) (hi : s.bus.hdmaActive = false) : t.bus = s.bus := by
  refine tick_bus_keeps (P := fun b => b = s.bus) (fun u w hu hb => ?_) h rfl
  unfold hdmaAtMode0 at hu
  rw [if_neg (by rw [hb, hi]; decide)] at hu
  cases hu
  exact hb

/-- With no transfer active, the picture generator never meets a fault. -/
theorem ppuCycle_total {s : State} (hi : s.bus.hdmaActive = false) : ∃ t, ppuCycle s = .ok t ∧ t.bus = s.bus := by
  have hm : ∀ u : State, u.bus = s.bus → ∃ t, enterMode0 u = .ok t ∧ t.bus = s.bus := by
    intro u hu
    have e : hdmaAtMode0 (lineDone u) = .ok (lineDone u) := by
      unfold hdmaAtMode0
      rw [if_neg (by rw [lineDone_bus, hu, hi]; decide)]
    refine ⟨requestIf (statEnable (lineDone u) 3) .stat (lineDone u), ?_, by rw [requestIf_bus, lineDone_bus, hu]⟩
    unfold enterMode0
    rw [e]
    rfl
  have hl : ∃ t, lineEvents (setPpu { s.ppu with lineCycle := s.ppu.lineCycle + 1 } s) = .ok t ∧ t.bus = s.bus := by
    unfold lineEvents
    split
    · unfold mode0AtEnd
      split
      · exact hm _ (by simp)
      · exact ⟨_, rfl, by simp⟩
    · exact ⟨_, rfl, by simp⟩
  obtain ⟨t, ht, hb⟩ := hl
  exact ⟨lineEnd (line153Event t), by unfold ppuCycle; rw [ht]; rfl, by simpa using hb⟩

/-- With no transfer active, any number of its cycles can pass. -/
theorem ppuAdvance_total (n : Nat) {s : State} (hi : s.bus.hdmaActive = false) : ∃ t, ppuAdvance n s = .ok t := by
  have h : ∀ n (s : State), s.bus.hdmaActive = false → ∃ t, ppuCycles n s = .ok t := by
    intro n
    induction n with
    | zero => exact fun s _ => ⟨s, rfl⟩
    | succ n ih =>
      intro s hi
      obtain ⟨u, hu, hb⟩ := ppuCycle_total hi
      obtain ⟨t, ht⟩ := ih u (by rw [hb]; exact hi)
      exact ⟨t, by unfold ppuCycles; rw [hu]; exact ht⟩
  unfold ppuAdvance
  split
  · exact h n s hi
  · exact ⟨s, rfl⟩

theorem monoBeyond_tick {n : Nat} {s t : State} (h : tick n s = .ok t) (hi : MonoBeyond s) : MonoBeyond t := by
  intro hc
  rw [tick_cart h] at hc
  obtain ⟨k1, k2⟩ := hi hc
  rw [tick_key1Armed h, tick_bus h k2.2.2]
  exact ⟨k1, k2⟩

/-! ### The addresses of a video DMA -/

/-- `TransferInv` on the bus registers. -/
def TransferOk (b : BusRegs) : Prop := b.hdmaSrc.toNat % 16 = 0 ∧ b.hdmaDst.toNat % 16 = 0

theorem transferInv_iff (s : State) : TransferInv s ↔ TransferOk s.bus := Iff.rfl

/-- Whole blocks keep both addresses at multiples of 16 (R99). -/
theorem transferOk_copy {k : Nat} {s t : State} (h : hdmaCopy (16 * k) s = .ok t) (hi : TransferOk s.bus) :
    TransferOk t.bus := by
  obtain ⟨h1, h2⟩ := hi
  rw [hdmaCopy_bus h]
  refine ⟨?_, ?_⟩
  · show (s.bus.hdmaSrc + BitVec.ofNat 16 (16 * k)).toNat % 16 = 0
    rw [BitVec.toNat_add, BitVec.toNat_ofNat]
    omega
  · show (s.bus.hdmaDst + BitVec.ofNat 13 (16 * k)).toNat % 16 = 0
    rw [BitVec.toNat_add, BitVec.toNat_ofNat]
    omega

theorem transferOk_atMode0 {s t : State} (h : hdmaAtMode0 s = .ok t) (hi : TransferOk s.bus) : TransferOk t.bus := by
  unfold hdmaAtMode0 at h
  split at h
  · obtain ⟨s1, h1, h⟩ := bind_eq_ok.mp h
    have := transferOk_copy (k := 1) h1 hi
    cases h
    split <;> exact this
  · cases h; exact hi

/-- The low half of an address, below a new high half. -/
theorem word_mod16 (hi : Byte) (w : Word) : (word hi (loByte w)).toNat % 16 = w.toNat % 16 := by
  simp only [word, loByte, BitVec.toNat_append, BitVec.extractLsb'_toNat]
  rw [← Nat.shiftLeft_add_eq_or_of_lt (by omega), Nat.shiftLeft_eq, Nat.shiftRight_zero]
  omega

theorem writeHdmaAddress_ok (r : IoReg) (v : Byte) {s : State} (h : TransferOk s.bus) :
    TransferOk (writeHdmaAddress r v s).bus := by
  obtain ⟨h1, h2⟩ := h
  have hv : (v &&& 0xF0 : Byte).toNat % 16 = 0 := by
    revert v; decide
  cases r
  case hdma1 => exact ⟨(word_mod16 v s.bus.hdmaSrc).trans h1, h2⟩
  case hdma2 =>
    refine ⟨?_, h2⟩
    show (word (hiByte s.bus.hdmaSrc) (v &&& 0xF0)).toNat % 16 = 0
    simp only [word, BitVec.toNat_append]
    rw [← Nat.shiftLeft_add_eq_or_of_lt (v &&& 0xF0).isLt, Nat.shiftLeft_eq]
    omega
  case hdma3 =>
    refine ⟨h1, ?_⟩
    show (v.extractLsb' 0 5 ++ s.bus.hdmaDst.extractLsb' 0 8).toNat % 16 = 0
    simp only [BitVec.toNat_append, BitVec.extractLsb'_toNat, Nat.shiftRight_zero]
    rw [← Nat.shiftLeft_add_eq_or_of_lt (by omega), Nat.shiftLeft_eq]
    omega
  case hdma4 =>
    refine ⟨h1, ?_⟩
    show (s.bus.hdmaDst.extractLsb' 8 5 ++ (v &&& 0xF0)).toNat % 16 = 0
    simp only [BitVec.toNat_append]
    rw [← Nat.shiftLeft_add_eq_or_of_lt (v &&& 0xF0).isLt, Nat.shiftLeft_eq]
    omega
  all_goals exact ⟨h1, h2⟩

theorem transferInv_write {a : Word} {v : Byte} {s t : State} (h : writeByte s a v = .ok t) (hi : TransferInv s) :
    TransferInv t := by
  rw [transferInv_iff] at *
  rcases writeByte_cases h with h | ⟨off, rfl⟩ | ⟨off, rfl⟩ | ⟨n, r, _, h⟩
  · rw [h]; exact hi
  · simpa using hi
  · simpa using hi
  · rcases writeIo_cases h with ⟨_, h⟩ | ⟨_, h⟩ | ⟨_, _, rfl⟩
    · unfold writeDma at h
      split at h
      · rw [oamCopy_bus h]; exact hi
      · cases h; exact hi
    · unfold writeHdma5 at h
      split at h
      · obtain ⟨s1, h1, h⟩ := bind_eq_ok.mp h
        cases h
        have := transferOk_copy h1 (by simpa using hi)
        exact this
      all_goals cases h; exact hi
    · cases r <;> simp only [writeIoPlain]
      case hdma1 => exact writeHdmaAddress_ok _ v hi
      case hdma2 => exact writeHdmaAddress_ok _ v hi
      case hdma3 => exact writeHdmaAddress_ok _ v hi
      case hdma4 => exact writeHdmaAddress_ok _ v hi
      case vbk => exact hi
      case svbk => exact hi
      all_goals simpa using hi

theorem transferInv_tick {n : Nat} {s t : State} (h : tick n s = .ok t) (hi : TransferInv s) : TransferInv t :=
  (transferInv_iff t).mpr (tick_bus_keeps (fun _ _ => transferOk_atMode0) h hi)

end Sys2Proof.Machine
end

