-- ==== Sys2Proof/Laws/Region.lean ====
section
/-! SUPPORT. The address map by ranges (R72), and which addresses cannot fail. -/

namespace Sys2Proof.Machine

theorem region_unechoed {a : Word} (h : a.toNat < 0xE000) : region a = regionOf a.toNat := by
  unfold region unecho
  rw [if_neg (by omega)]

theorem region_romFixed {a : Word} (h : a.toNat < 0x4000) : region a = .romFixed a.toNat := by
  rw [region_unechoed (by omega)]
  unfold regionOf
  rw [if_pos h]

theorem region_romBanked {a : Word} (h : 0x4000 ≤ a.toNat) (h' : a.toNat < 0x8000) :
    region a = .romBanked (a.toNat - 0x4000) := by
  rw [region_unechoed (by omega)]
  unfold regionOf
  rw [if_neg (by omega), if_pos h']

/-- Below `0x8000` there is ROM. -/
theorem region_rom {a : Word} (h : a.toNat < 0x8000) :
    region a = .romFixed a.toNat ∨ region a = .romBanked (a.toNat - 0x4000) := by
  by_cases h' : a.toNat < 0x4000
  · exact .inl (region_romFixed h')
  · exact .inr (region_romBanked (by omega) h)

/-- The source of a DMA copy: below `0xE000` there is a device at every address (R98). -/
theorem readWith_below {g : Bool} {s : State} {a : Word} (h : a.toNat < 0xE000) : ∃ b, readWith g s a = .ok b := by
  have hr : ∀ n, region a ≠ .io n := by
    intro n hc
    rw [region_unechoed h] at hc
    unfold regionOf at hc
    repeat' split at hc
    all_goals first | omega | contradiction
  have hn : region a ≠ .nothing := by
    intro hc
    rw [region_unechoed h] at hc
    unfold regionOf at hc
    repeat' split at hc
    all_goals first | omega | contradiction
  unfold readWith
  cases he : region a with
  | io n => exact absurd he (hr n)
  | nothing => exact absurd he hn
  | _ => exact ⟨_, rfl⟩

/-- A read of an I/O address below `0xFF80`. -/
theorem unecho_io {a n : Nat} (h : regionOf (unecho a) = .io n) : a = 0xFF00 + n ∧ n < 128 := by
  have h1 : unecho a = 0xFF00 + n ∧ n < 128 := by
    generalize unecho a = b at h
    unfold regionOf at h
    repeat' split at h
    all_goals first | contradiction | simp only [Region.io.injEq] at h
    all_goals exact ⟨by omega, by omega⟩
  obtain ⟨h1, h2⟩ := h1
  unfold unecho at h1
  split at h1 <;> omega

/-- Where there is no device (R95): above OAM, or an I/O address without a register. -/
theorem noDevice_range {s : State} {a : Word} (h : noDevice s a = true) :
    (0xFEA0 ≤ a.toNat ∧ a.toNat < 0xFF00) ∨
      0xFF00 ≤ a.toNat ∧ a.toNat < 0xFF80 ∧ ioReg s.cart.colorMode (a.toNat - 0xFF00) = none := by
  unfold noDevice at h
  cases hr : region a <;> rw [hr] at h <;> simp only [] at h
  case nothing =>
    have h1 : 0xFEA0 ≤ unecho a.toNat ∧ unecho a.toNat < 0xFF00 := by
      unfold region at hr
      generalize unecho a.toNat = b at hr
      unfold regionOf at hr
      repeat' split at hr
      all_goals first | contradiction | omega
    unfold unecho at h1
    split at h1 <;> omega
  case io n =>
    obtain ⟨h1, h2⟩ := unecho_io hr
    refine .inr ⟨by omega, by omega, ?_⟩
    rw [h1, Nat.add_sub_cancel_left]
    simpa using h
  all_goals cases h

/-- A read does not depend on `IF` except at its own address (R92). -/
theorem readByte_ifReg (s : State) (f : BitVec 5) {a : Word} (ha : a ≠ 0xFF0F#16) :
    readByte { s with ifReg := f } a = readByte s a := by
  unfold readByte readWith
  cases hr : region a <;> try rfl
  rename_i n
  obtain ⟨h1, h2⟩ := unecho_io hr
  have hn : n ≠ 15 := by
    rintro rfl
    exact ha (BitVec.eq_of_toNat_eq h1)
  have hi : ∀ c n, n < 128 → ioReg c n = some .irq → n = 15 := by decide
  simp only []
  cases h : ioReg s.cart.colorMode n with
  | none => rfl
  | some r =>
    simp only []
    cases r <;> first | rfl | exact absurd (hi _ _ h2 h) hn

end Sys2Proof.Machine
end

