-- ==== Sys2Proof/Laws/Slice.lean ====
section
/-! SUPPORT. The slices of spec/70_reset_and_hazards.md R580: where one ends does not depend on how long it is followed,
and it does end if every step counts. -/

namespace Sys2Proof.Machine

/-- A slice that has ended by `fuel` steps has ended in the same state by any more. -/
theorem runSlice_mono {budget fuel extra used : Nat} {s t : State} (h : runSlice budget fuel used s = some t) :
    runSlice budget (fuel + extra) used s = some t := by
  induction fuel generalizing used s with
  | zero =>
    unfold runSlice at h
    split at h
    · cases h
    · rename_i hc
      cases h
      rw [Nat.zero_add]
      cases extra <;> (unfold runSlice; rw [if_neg hc])
  | succ n ih =>
    rw [Nat.add_right_comm]
    unfold runSlice at h ⊢
    split at h
    · rw [if_pos ‹_›]; exact ih h
    · rw [if_neg ‹_›]; exact h

/-- A slice ends in at most one state. -/
theorem Advances.unique {budget now : Nat} {events : List (Button × Bool)} {s t u : State}
    (h : Advances budget now events s t) (h' : Advances budget now events s u) : t = u := by
  obtain ⟨m, hm⟩ := h
  obtain ⟨n, hn⟩ := h'
  have h1 := runSlice_mono (extra := n) hm
  have h2 := runSlice_mono (extra := m) hn
  rw [Nat.add_comm] at h2
  exact Option.some.inj (h1.symm.trans h2)

/-- A slice ends in a state in which it does not go on. -/
theorem runSlice_ended {budget fuel used : Nat} {s t : State} (h : runSlice budget fuel used s = some t) :
    ∃ total, used ≤ total ∧ sliceOpen budget total t = false := by
  induction fuel generalizing used s with
  | zero =>
    unfold runSlice at h
    split at h
    · cases h
    · cases h; exact ⟨used, Nat.le_refl _, Bool.eq_false_iff.mpr ‹_›⟩
  | succ n ih =>
    unfold runSlice at h
    split at h
    · obtain ⟨total, h1, h2⟩ := ih h
      exact ⟨total, by omega, h2⟩
    · cases h; exact ⟨used, Nat.le_refl _, Bool.eq_false_iff.mpr ‹_›⟩

/-- If, in the states a run can reach (`K`), each step spends a cycle or sets a fault, the slice ends. -/
theorem runSlice_ends {K : State → Prop} {budget : Nat} (hK : ∀ u, K u → K (recordStep u))
    (hs : ∀ u, K u → u.fault = none → u.cpu.runState ≠ .stopped →
      0 < spent u (recordStep u) ∨ (recordStep u).fault ≠ none) (fuel : Nat) :
    ∀ (used : Nat) (s : State), K s → budget < used + fuel → ∃ t, runSlice budget fuel used s = some t := by
  induction fuel with
  | zero =>
    intro used s _ hf
    refine ⟨s, ?_⟩
    unfold runSlice
    rw [if_neg]
    unfold sliceOpen
    simp
    omega
  | succ n ih =>
    intro used s hk hf
    unfold runSlice
    split
    · rename_i ho
      simp only [sliceOpen, Bool.and_eq_true, Option.isNone_iff_eq_none, bne_iff_ne, decide_eq_true_eq] at ho
      rcases hs s hk ho.1.1 ho.1.2 with h | h
      · exact ih _ _ (hK s hk) (by omega)
      · refine ⟨recordStep s, ?_⟩
        have hc : ¬ sliceOpen budget (used + spent s (recordStep s)) (recordStep s) = true := by
          simp only [sliceOpen, Bool.and_eq_true, Option.isNone_iff_eq_none]
          exact fun h' => h h'.1.1
        cases n <;> (unfold runSlice; rw [if_neg hc])
    · exact ⟨s, rfl⟩

end Sys2Proof.Machine
end

