-- ==== Sys2Proof/Tests/Slice0.lean ====
section
/-! SUPPORT. Tests. Expected results are the spec's: the rules' encodings (spec/30_encoding.md) and the vectors of
spec/95_test_vectors.md. The theorems `witness_…` show that the hypotheses of a statement can be met. -/

namespace Sys2Proof.Tests

open Sys2Proof Sys2Proof.Machine

/-- The default start of spec/95_test_vectors.md section 2. -/
def z : Cpu :=
  { a := 0, b := 0, c := 0, d := 0, e := 0, h := 0, l := 0, zf := false, nf := false, hf := false, cf := false,
    sp := 0xFFFE, pc := 0xC000, ime := false, imePending := 0, runState := .running, haltRepeat := false,
    speedShift := false }

/-- The machine with that processor, no request, the display off and no picture. -/
def m (c : Cpu) : State :=
  { State.reset with
    cpu := c, ifReg := 0, ppu := { State.reset.ppu with lcdc := 0x11, mode := .hblank, lineBuf := [], frame := [] } }

/-- Cells placed in memory. -/
def placed (cells : List (Word × Byte)) (s : State) : State := cells.foldl (fun t p => placeByte p.1 p.2 t) s

/-- One instruction placed at the program counter, fetched and executed: what `f` shows of the next state, and the
cost. -/
def after {α : Type} (bytes : List Byte) (cells : List (Word × Byte)) (c : Cpu) (f : State → α) : Option (α × Nat) :=
  match fetchInstr (placed cells (placeBytes bytes c.pc (m c))) with
  | .error _ => none
  | .ok (i, s) => match exec i s with
    | .next t => some (f t, cost i s)
    | .fault _ => none
    | .refused _ => none

/-- The flag byte. -/
def f (t : State) : Byte := t.cpu.flags.pack

/-- The byte the bus reads. -/
def at_ (a : Word) (t : State) : Option Byte := (readByte t a).toOption


/-! spec/95_test_vectors.md section 2.1. -/

theorem test_ld_b_c : after [0x41] [] { z with c := 0x5A }
    (fun t => (t.cpu.b, t.cpu.pc, f t)) = some ((0x5A, 0xC001, 0x00), 4) := by decide
theorem test_ld_d_d8 : after [0x16, 0xFF] [] z
    (fun t => (t.cpu.d, t.cpu.pc, f t)) = some ((0xFF, 0xC002, 0x00), 8) := by decide
theorem test_ld_a_at_hl : after [0x7E] [(0xC100, 0x9C)] { z with h := 0xC1, l := 0x00 }
    (fun t => (t.cpu.a, t.cpu.pc, f t)) = some ((0x9C, 0xC001, 0x00), 8) := by decide
theorem test_ld_at_hl_l : after [0x75] [] { z with h := 0xC1, l := 0x34 }
    (fun t => (t.cpu.pc, f t, at_ 0xC134 t)) = some ((0xC001, 0x00, some 0x34), 8) := by decide
theorem test_ld_at_hl_d8 : after [0x36, 0xA5] [] { z with h := 0xC2, l := 0x00 }
    (fun t => (t.cpu.pc, f t, at_ 0xC200 t)) = some ((0xC002, 0x00, some 0xA5), 12) := by decide
theorem test_ld_a_at_bc : after [0x0A] [(0xC010, 0x11)] { z with b := 0xC0, c := 0x10 }
    (fun t => (t.cpu.a, t.cpu.pc, f t)) = some ((0x11, 0xC001, 0x00), 8) := by decide
theorem test_ld_at_bc_a : after [0x02] [] { z with a := 0x7F, b := 0xC0, c := 0x20 }
    (fun t => (t.cpu.pc, f t, at_ 0xC020 t)) = some ((0xC001, 0x00, some 0x7F), 8) := by decide
theorem test_ld_a_at_a16 : after [0xFA, 0x34, 0xC2] [(0xC234, 0x5E)] z
    (fun t => (t.cpu.a, t.cpu.pc, f t)) = some ((0x5E, 0xC003, 0x00), 16) := by decide
theorem test_ld_at_a16_a : after [0xEA, 0x00, 0xD0] [] { z with a := 0x42 }
    (fun t => (t.cpu.pc, f t, at_ 0xD000 t)) = some ((0xC003, 0x00, some 0x42), 16) := by decide
theorem test_ldh_a_at_a8 : after [0xF0, 0x80] [(0xFF80, 0x99)] z
    (fun t => (t.cpu.a, t.cpu.pc, f t)) = some ((0x99, 0xC002, 0x00), 12) := by decide
theorem test_ldh_at_a8_a : after [0xE0, 0xFE] [] { z with a := 0x3C }
    (fun t => (t.cpu.pc, f t, at_ 0xFFFE t)) = some ((0xC002, 0x00, some 0x3C), 12) := by decide
theorem test_ldh_a_at_c : after [0xF2] [(0xFF81, 0x44)] { z with c := 0x81 }
    (fun t => (t.cpu.a, t.cpu.pc, f t)) = some ((0x44, 0xC001, 0x00), 8) := by decide
theorem test_ldh_at_c_a : after [0xE2] [] { z with a := 0x55, c := 0x82 }
    (fun t => (t.cpu.pc, f t, at_ 0xFF82 t)) = some ((0xC001, 0x00, some 0x55), 8) := by decide
theorem test_ld_at_hl_inc_a : after [0x22] [] { z with a := 0x01, h := 0xC0, l := 0xFF }
    (fun t => ((t.cpu.h, t.cpu.l, t.cpu.pc), f t, at_ 0xC0FF t)) =
      some (((0xC1, 0x00, 0xC001), 0x00, some 0x01), 8) := by decide
theorem test_ld_at_hl_dec_a : after [0x32] [] { z with a := 0x02, h := 0xC1, l := 0x00 }
    (fun t => ((t.cpu.h, t.cpu.l, t.cpu.pc), f t, at_ 0xC100 t)) =
      some (((0xC0, 0xFF, 0xC001), 0x00, some 0x02), 8) := by decide
theorem test_ld_a_at_hl_inc : after [0x2A] [(0xFFFF, 0x1F)] { z with h := 0xFF, l := 0xFF }
    (fun t => ((t.cpu.a, t.cpu.h, t.cpu.l), t.cpu.pc, f t)) =
      some (((0x1F, 0x00, 0x00), 0xC001, 0x00), 8) := by decide
theorem test_ld_a_at_hl_dec : after [0x3A] [(0x0000, 0xC3)] { z with h := 0x00, l := 0x00 }
    (fun t => ((t.cpu.a, t.cpu.h, t.cpu.l), t.cpu.pc, f t)) =
      some (((0xC3, 0xFF, 0xFF), 0xC001, 0x00), 8) := by decide

/-! spec/95_test_vectors.md section 2.2. -/

theorem test_ld_bc_d16 : after [0x01, 0x34, 0x12] [] z
    (fun t => (t.cpu.b, t.cpu.c, t.cpu.pc, f t)) = some ((0x12, 0x34, 0xC003, 0x00), 12) := by decide
theorem test_ld_sp_d16 : after [0x31, 0x00, 0xD0] [] z
    (fun t => (t.cpu.sp, t.cpu.pc, f t)) = some ((0xD000, 0xC003, 0x00), 12) := by decide
theorem test_ld_at_a16_sp : after [0x08, 0x00, 0xC1] [] { z with sp := 0xABCD }
    (fun t => (t.cpu.pc, f t, at_ 0xC100 t, at_ 0xC101 t)) =
      some ((0xC003, 0x00, some 0xCD, some 0xAB), 20) := by decide
theorem test_ld_sp_hl : after [0xF9] [] { z with h := 0xDF, l := 0xF0 }
    (fun t => (t.cpu.sp, t.cpu.pc, f t)) = some ((0xDFF0, 0xC001, 0x00), 8) := by decide
theorem test_ld_hl_sp_e8 : after [0xF8, 0x08] [] { z with sp := 0xFFF8 }
    (fun t => (t.cpu.h, t.cpu.l, t.cpu.pc, f t)) = some ((0x00, 0x00, 0xC002, 0x30), 12) := by decide
theorem test_push_bc : after [0xC5] [] { z with sp := 0xD000, b := 0x12, c := 0x34 }
    (fun t => ((t.cpu.sp, t.cpu.pc, f t), at_ 0xCFFF t, at_ 0xCFFE t)) =
      some (((0xCFFE, 0xC001, 0x00), some 0x12, some 0x34), 16) := by decide
theorem test_push_af : after [0xF5] [] { z with sp := 0xD000, a := 0x12, zf := true, hf := true, cf := true }
    (fun t => ((t.cpu.sp, t.cpu.pc, f t), at_ 0xCFFF t, at_ 0xCFFE t)) =
      some (((0xCFFE, 0xC001, 0xB0), some 0x12, some 0xB0), 16) := by decide
theorem test_push_hl : after [0xE5] [] { z with sp := 0x0001, h := 0xBE, l := 0xEF }
    (fun t => (t.cpu.sp, t.cpu.pc, f t, at_ 0xFFFF t)) = some ((0xFFFF, 0xC001, 0x00, some 0xEF), 16) := by decide
theorem test_pop_de : after [0xD1] [(0xCFFE, 0xCD), (0xCFFF, 0xAB)] { z with sp := 0xCFFE }
    (fun t => ((t.cpu.d, t.cpu.e, t.cpu.sp), t.cpu.pc, f t)) =
      some (((0xAB, 0xCD, 0xD000), 0xC001, 0x00), 12) := by decide
theorem test_pop_af : after [0xF1] [(0xCFFE, 0xFF), (0xCFFF, 0x12)] { z with sp := 0xCFFE }
    (fun t => (t.cpu.a, t.cpu.sp, t.cpu.pc, f t)) = some ((0x12, 0xD000, 0xC001, 0xF0), 12) := by decide
theorem test_pop_af_again : after [0xF1] [(0xCFFE, 0x0F), (0xCFFF, 0x00)] 
    { z with sp := 0xCFFE, zf := true, nf := true, hf := true, cf := true }
    (fun t => (t.cpu.sp, t.cpu.pc, f t)) = some ((0xD000, 0xC001, 0x00), 12) := by decide

/-! spec/95_test_vectors.md section 2.3. -/

theorem test_add_a_b : after [0x80] [] { z with a := 0x3A, b := 0xC6 }
    (fun t => (t.cpu.a, t.cpu.pc, f t)) = some ((0x00, 0xC001, 0xB0), 4) := by decide
theorem test_add_a_d8 : after [0xC6, 0xFF] [] { z with a := 0x01 }
    (fun t => (t.cpu.a, t.cpu.pc, f t)) = some ((0x00, 0xC002, 0xB0), 8) := by decide
theorem test_add_a_at_hl : after [0x86] [(0xC100, 0x22)] { z with a := 0x10, h := 0xC1, l := 0x00 }
    (fun t => (t.cpu.a, t.cpu.pc, f t)) = some ((0x32, 0xC001, 0x00), 8) := by decide
theorem test_adc_a_c : after [0x89] [] { z with a := 0xFF, c := 0x00, cf := true }
    (fun t => (t.cpu.a, t.cpu.pc, f t)) = some ((0x00, 0xC001, 0xB0), 4) := by decide
theorem test_adc_a_c_again : after [0x89] [] { z with a := 0x0F, c := 0x00, cf := true }
    (fun t => (t.cpu.a, t.cpu.pc, f t)) = some ((0x10, 0xC001, 0x20), 4) := by decide
theorem test_adc_a_d8 : after [0xCE, 0xFF] [] { z with a := 0x00, cf := true }
    (fun t => (t.cpu.pc, f t)) = some ((0xC002, 0xB0), 8) := by decide
theorem test_sub_a_b : after [0x90] [] { z with a := 0x3E, b := 0x3E }
    (fun t => (t.cpu.a, t.cpu.pc, f t)) = some ((0x00, 0xC001, 0xC0), 4) := by decide
theorem test_sub_a_d8 : after [0xD6, 0x01] [] { z with a := 0x00 }
    (fun t => (t.cpu.a, t.cpu.pc, f t)) = some ((0xFF, 0xC002, 0x70), 8) := by decide
theorem test_sub_a_a : after [0x97] [] { z with a := 0x5C, cf := true }
    (fun t => (t.cpu.a, t.cpu.pc, f t)) = some ((0x00, 0xC001, 0xC0), 4) := by decide
theorem test_sbc_a_b : after [0x98] [] { z with a := 0x00, b := 0x00, cf := true }
    (fun t => (t.cpu.a, t.cpu.pc, f t)) = some ((0xFF, 0xC001, 0x70), 4) := by decide
theorem test_sbc_a_b_again : after [0x98] [] { z with a := 0x10, b := 0x0F, cf := true }
    (fun t => (t.cpu.a, t.cpu.pc, f t)) = some ((0x00, 0xC001, 0xE0), 4) := by decide
theorem test_sbc_a_d8 : after [0xDE, 0xFF] [] { z with a := 0x00, cf := true }
    (fun t => (t.cpu.pc, f t)) = some ((0xC002, 0xF0), 8) := by decide
theorem test_sbc_a_a : after [0x9F] [] { z with a := 0x77, cf := true }
    (fun t => (t.cpu.a, t.cpu.pc, f t)) = some ((0xFF, 0xC001, 0x70), 4) := by decide
theorem test_and_a_d8 : after [0xE6, 0x00] [] { z with a := 0xFF }
    (fun t => (t.cpu.a, t.cpu.pc, f t)) = some ((0x00, 0xC002, 0xA0), 8) := by decide
theorem test_xor_a_a : after [0xAF] [] { z with a := 0x99, nf := true, hf := true, cf := true }
    (fun t => (t.cpu.a, t.cpu.pc, f t)) = some ((0x00, 0xC001, 0x80), 4) := by decide
theorem test_xor_a_at_hl : after [0xAE] [(0xC100, 0x0F)] { z with a := 0xFF, h := 0xC1, l := 0x00 }
    (fun t => (t.cpu.a, t.cpu.pc, f t)) = some ((0xF0, 0xC001, 0x00), 8) := by decide
theorem test_or_a_d8 : after [0xF6, 0x81] [] { z with a := 0x18 }
    (fun t => (t.cpu.a, t.cpu.pc, f t)) = some ((0x99, 0xC002, 0x00), 8) := by decide
theorem test_cp_a_b : after [0xB8] [] { z with a := 0x3C, b := 0x2F }
    (fun t => (t.cpu.pc, f t)) = some ((0xC001, 0x60), 4) := by decide
theorem test_cp_a_d8 : after [0xFE, 0x3C] [] { z with a := 0x3C }
    (fun t => (t.cpu.pc, f t)) = some ((0xC002, 0xC0), 8) := by decide
theorem test_cp_a_at_hl : after [0xBE] [(0xC100, 0x40)] { z with a := 0x3C, h := 0xC1, l := 0x00 }
    (fun t => (t.cpu.pc, f t)) = some ((0xC001, 0x50), 8) := by decide
theorem test_inc_a : after [0x3C] [] { z with a := 0xFF, cf := true }
    (fun t => (t.cpu.a, t.cpu.pc, f t)) = some ((0x00, 0xC001, 0xB0), 4) := by decide
theorem test_inc_at_hl : after [0x34] [(0xC100, 0x7F)] { z with h := 0xC1, l := 0x00 }
    (fun t => (t.cpu.pc, f t, at_ 0xC100 t)) = some ((0xC001, 0x20, some 0x80), 12) := by decide
theorem test_dec_b : after [0x05] [] { z with b := 0x00 }
    (fun t => (t.cpu.b, t.cpu.pc, f t)) = some ((0xFF, 0xC001, 0x60), 4) := by decide
theorem test_dec_at_hl : after [0x35] [(0xC100, 0x00)] { z with h := 0xC1, l := 0x00 }
    (fun t => (t.cpu.pc, f t, at_ 0xC100 t)) = some ((0xC001, 0x60, some 0xFF), 12) := by decide
theorem test_daa : after [0x27] [] { z with a := 0x3C }
    (fun t => (t.cpu.a, t.cpu.pc, f t)) = some ((0x42, 0xC001, 0x00), 4) := by decide
theorem test_daa_again : after [0x27] [] { z with a := 0x9A }
    (fun t => (t.cpu.a, t.cpu.pc, f t)) = some ((0x00, 0xC001, 0x90), 4) := by decide
theorem test_cpl : after [0x2F] [] { z with a := 0x35, zf := true, cf := true }
    (fun t => (t.cpu.a, t.cpu.pc, f t)) = some ((0xCA, 0xC001, 0xF0), 4) := by decide
theorem test_scf : after [0x37] [] { z with zf := true, nf := true, hf := true }
    (fun t => (t.cpu.pc, f t)) = some ((0xC001, 0x90), 4) := by decide

/-! spec/95_test_vectors.md section 2.4. -/

theorem test_add_hl_bc : after [0x09] [] { z with h := 0x0F, l := 0xFF, b := 0x00, c := 0x01, zf := true, nf := true }
    (fun t => (t.cpu.h, t.cpu.l, t.cpu.pc, f t)) = some ((0x10, 0x00, 0xC001, 0xA0), 8) := by decide
theorem test_add_hl_de : after [0x19] [] { z with h := 0x80, l := 0x00, d := 0x80, e := 0x00 }
    (fun t => (t.cpu.h, t.cpu.pc, f t)) = some ((0x00, 0xC001, 0x10), 8) := by decide
theorem test_add_hl_hl : after [0x29] [] { z with h := 0x88, l := 0x00 }
    (fun t => (t.cpu.h, t.cpu.pc, f t)) = some ((0x10, 0xC001, 0x30), 8) := by decide
theorem test_add_hl_sp : after [0x39] [] { z with h := 0x00, l := 0xFF, sp := 0x0001 }
    (fun t => (t.cpu.h, t.cpu.l, t.cpu.pc, f t)) = some ((0x01, 0x00, 0xC001, 0x00), 8) := by decide
theorem test_inc_bc : after [0x03] [] { z with b := 0xFF, c := 0xFF, zf := true, cf := true }
    (fun t => (t.cpu.b, t.cpu.c, t.cpu.pc, f t)) = some ((0x00, 0x00, 0xC001, 0x90), 8) := by decide
theorem test_dec_de : after [0x1B] [] { z with d := 0x00, e := 0x00 }
    (fun t => (t.cpu.d, t.cpu.e, t.cpu.pc, f t)) = some ((0xFF, 0xFF, 0xC001, 0x00), 8) := by decide
theorem test_dec_hl : after [0x2B] [] { z with h := 0x10, l := 0x00 }
    (fun t => (t.cpu.h, t.cpu.l, t.cpu.pc, f t)) = some ((0x0F, 0xFF, 0xC001, 0x00), 8) := by decide
theorem test_add_sp_e8 : after [0xE8, 0x01] [] { z with sp := 0xFFFF, zf := true, nf := true }
    (fun t => (t.cpu.sp, t.cpu.pc, f t)) = some ((0x0000, 0xC002, 0x30), 16) := by decide
theorem test_add_sp_e8_again : after [0xE8, 0xFF] [] { z with sp := 0x0100 }
    (fun t => (t.cpu.sp, t.cpu.pc, f t)) = some ((0x00FF, 0xC002, 0x00), 16) := by decide

/-! spec/95_test_vectors.md section 2.5. -/

theorem test_rlca : after [0x07] [] { z with a := 0x85, zf := true, nf := true, hf := true }
    (fun t => (t.cpu.a, t.cpu.pc, f t)) = some ((0x0B, 0xC001, 0x10), 4) := by decide
theorem test_rla : after [0x17] [] { z with a := 0x95, cf := true }
    (fun t => (t.cpu.a, t.cpu.pc, f t)) = some ((0x2B, 0xC001, 0x10), 4) := by decide
theorem test_rrca : after [0x0F] [] { z with a := 0x01 }
    (fun t => (t.cpu.a, t.cpu.pc, f t)) = some ((0x80, 0xC001, 0x10), 4) := by decide
theorem test_rra : after [0x1F] [] { z with a := 0x81 }
    (fun t => (t.cpu.a, t.cpu.pc, f t)) = some ((0x40, 0xC001, 0x10), 4) := by decide
theorem test_rlc_b : after [0xCB, 0x00] [] { z with b := 0x80 }
    (fun t => (t.cpu.b, t.cpu.pc, f t)) = some ((0x01, 0xC002, 0x10), 8) := by decide
theorem test_rlc_at_hl : after [0xCB, 0x06] [(0xC100, 0x85)] { z with h := 0xC1, l := 0x00 }
    (fun t => (t.cpu.pc, f t, at_ 0xC100 t)) = some ((0xC002, 0x10, some 0x0B), 16) := by decide
theorem test_rrc_d : after [0xCB, 0x0A] [] { z with d := 0x01 }
    (fun t => (t.cpu.d, t.cpu.pc, f t)) = some ((0x80, 0xC002, 0x10), 8) := by decide
theorem test_rl_e : after [0xCB, 0x13] [] { z with e := 0x80 }
    (fun t => (t.cpu.e, t.cpu.pc, f t)) = some ((0x00, 0xC002, 0x90), 8) := by decide
theorem test_rr_h : after [0xCB, 0x1C] [] { z with h := 0x01 }
    (fun t => (t.cpu.h, t.cpu.pc, f t)) = some ((0x00, 0xC002, 0x90), 8) := by decide
theorem test_rr_at_hl : after [0xCB, 0x1E] [(0xC100, 0x8A)] { z with h := 0xC1, l := 0x00, cf := true }
    (fun t => (t.cpu.pc, f t, at_ 0xC100 t)) = some ((0xC002, 0x00, some 0xC5), 16) := by decide
theorem test_sla_l : after [0xCB, 0x25] [] { z with l := 0x80 }
    (fun t => (t.cpu.l, t.cpu.pc, f t)) = some ((0x00, 0xC002, 0x90), 8) := by decide
theorem test_sra_b : after [0xCB, 0x28] [] { z with b := 0x81 }
    (fun t => (t.cpu.b, t.cpu.pc, f t)) = some ((0xC0, 0xC002, 0x10), 8) := by decide
theorem test_sra_c : after [0xCB, 0x29] [] { z with c := 0x01 }
    (fun t => (t.cpu.c, t.cpu.pc, f t)) = some ((0x00, 0xC002, 0x90), 8) := by decide
theorem test_swap_a : after [0xCB, 0x37] [] { z with a := 0xF1, cf := true }
    (fun t => (t.cpu.a, t.cpu.pc, f t)) = some ((0x1F, 0xC002, 0x00), 8) := by decide
theorem test_swap_at_hl : after [0xCB, 0x36] [(0xC100, 0x00)] { z with h := 0xC1, l := 0x00, cf := true }
    (fun t => (t.cpu.pc, f t, at_ 0xC100 t)) = some ((0xC002, 0x80, some 0x00), 16) := by decide
theorem test_srl_a : after [0xCB, 0x3F] [] { z with a := 0x01 }
    (fun t => (t.cpu.a, t.cpu.pc, f t)) = some ((0x00, 0xC002, 0x90), 8) := by decide
theorem test_bit_7_h : after [0xCB, 0x7C] [] { z with h := 0x80, nf := true, cf := true }
    (fun t => (t.cpu.pc, f t)) = some ((0xC002, 0x30), 8) := by decide
theorem test_bit_0_at_hl : after [0xCB, 0x46] [(0xC100, 0xFE)] { z with h := 0xC1, l := 0x00 }
    (fun t => (t.cpu.pc, f t)) = some ((0xC002, 0xA0), 12) := by decide
theorem test_res_0_at_hl : after [0xCB, 0x86] [(0xC100, 0xFF)] { z with h := 0xC1, l := 0x00, zf := true, cf := true }
    (fun t => (t.cpu.pc, f t, at_ 0xC100 t)) = some ((0xC002, 0x90, some 0xFE), 16) := by decide
theorem test_res_7_a : after [0xCB, 0xBF] [] { z with a := 0x7F }
    (fun t => (t.cpu.a, t.cpu.pc, f t)) = some ((0x7F, 0xC002, 0x00), 8) := by decide
theorem test_set_7_a : after [0xCB, 0xFF] [] { z with a := 0x00 }
    (fun t => (t.cpu.a, t.cpu.pc, f t)) = some ((0x80, 0xC002, 0x00), 8) := by decide
theorem test_set_3_at_hl : after [0xCB, 0xDE] [(0xC100, 0x08)] { z with h := 0xC1, l := 0x00 }
    (fun t => (t.cpu.pc, f t, at_ 0xC100 t)) = some ((0xC002, 0x00, some 0x08), 16) := by decide

/-! spec/95_test_vectors.md section 2.6. -/

theorem test_jp_a16 : after [0xC3, 0x50, 0x01] [] z
    (fun t => (t.cpu.pc, f t)) = some ((0x0150, 0x00), 16) := by decide
theorem test_jp_nz_a16 : after [0xC2, 0x00, 0xD0] [] { z with zf := true }
    (fun t => (t.cpu.pc, f t)) = some ((0xC003, 0x80), 12) := by decide
theorem test_jp_nz_a16_again : after [0xC2, 0x00, 0xD0] [] z
    (fun t => (t.cpu.pc, f t)) = some ((0xD000, 0x00), 16) := by decide
theorem test_jp_hl : after [0xE9] [] { z with h := 0xC1, l := 0x23 }
    (fun t => (t.cpu.pc, f t)) = some ((0xC123, 0x00), 4) := by decide
theorem test_jr_e8 : after [0x18, 0x05] [] z
    (fun t => (t.cpu.pc, f t)) = some ((0xC007, 0x00), 12) := by decide
theorem test_jr_z_e8 : after [0x28, 0x10] [] z
    (fun t => (t.cpu.pc, f t)) = some ((0xC002, 0x00), 8) := by decide
theorem test_call_a16 : after [0xCD, 0x00, 0xD0] [] { z with sp := 0xDFFF }
    (fun t => ((t.cpu.sp, t.cpu.pc, f t), at_ 0xDFFE t, at_ 0xDFFD t)) =
      some (((0xDFFD, 0xD000, 0x00), some 0xC0, some 0x03), 24) := by decide
theorem test_call_z_a16 : after [0xCC, 0x00, 0xD0] [] { z with sp := 0xDFFF }
    (fun t => (t.cpu.pc, f t)) = some ((0xC003, 0x00), 12) := by decide
theorem test_ret : after [0xC9] [(0xDFF0, 0x03), (0xDFF1, 0xC0)] { z with sp := 0xDFF0 }
    (fun t => (t.cpu.sp, t.cpu.pc, f t)) = some ((0xDFF2, 0xC003, 0x00), 16) := by decide
theorem test_ret_nz : after [0xC0] [(0xDFF0, 0x03), (0xDFF1, 0xC0)] { z with sp := 0xDFF0, zf := true }
    (fun t => (t.cpu.pc, f t)) = some ((0xC001, 0x80), 8) := by decide
theorem test_ret_c : after [0xD8] [(0xDFF0, 0x03), (0xDFF1, 0xC0)] { z with sp := 0xDFF0, cf := true }
    (fun t => (t.cpu.sp, t.cpu.pc, f t)) = some ((0xDFF2, 0xC003, 0x10), 20) := by decide
theorem test_reti : after [0xD9] [(0xDFF0, 0x50), (0xDFF1, 0x01)] { z with sp := 0xDFF0 }
    (fun t => (t.cpu.sp, t.cpu.pc, f t, t.cpu.ime)) = some ((0xDFF2, 0x0150, 0x00, true), 16) := by decide
theorem test_rst_0x38 : after [0xFF] [] { z with sp := 0xDFFF }
    (fun t => ((t.cpu.sp, t.cpu.pc, f t), at_ 0xDFFE t, at_ 0xDFFD t)) =
      some (((0xDFFD, 0x0038, 0x00), some 0xC0, some 0x01), 16) := by decide

/-! spec/95_test_vectors.md section 2.7. -/

theorem test_nop : after [0x00] [] { z with zf := true, nf := true, hf := true, cf := true }
    (fun t => (t.cpu.pc, f t)) = some ((0xC001, 0xF0), 4) := by decide
theorem test_di : after [0xF3] [] { z with ime := true }
    (fun t => (t.cpu.pc, f t, t.cpu.ime)) = some ((0xC001, 0x00, false), 4) := by decide
theorem test_halt : after [0x76] [] z
    (fun t => (t.cpu.pc, f t, t.cpu.runState)) = some ((0xC001, 0x00, .halted), 4) := by decide
theorem test_stop : after [0x10, 0x00] [] z
    (fun t => (t.cpu.pc, f t, t.cpu.runState)) = some ((0xC002, 0x00, .stopped), 4) := by decide

/-! Instructions without a row in section 2: the rules R322, R324, R326, R341. -/

/-- The fault of the instruction placed at the program counter. -/
def faultOf (bytes : List Byte) (c : Cpu) : Option Fault :=
  match fetchInstr (placeBytes bytes c.pc (m c)) with
  | .error e => some e
  | .ok (i, s) => match exec i s with
    | .next _ => none
    | .fault e => some e
    | .refused _ => none

theorem test_illegal_d3 : faultOf [0xD3] z = some (.illegalOpcode 0xD3) := by decide
theorem test_illegal_fd : faultOf [0xFD] { z with a := 0x12 } = some (.illegalOpcode 0xFD) := by decide
theorem test_stop_reserved : faultOf [0x10, 0x01] z = some (.reservedStopOperand 0x01) := by decide
theorem test_ei : after [0xFB] [] z (fun t => (t.cpu.ime, t.cpu.imePending)) = some ((false, 2), 4) := by decide
/-- R81, R92: a store to `IE`, read back whole. -/
theorem test_store_ie : after [0xE0, 0xFF] [] { z with a := 0xE5 } (at_ 0xFFFF) = some (some 0xE5, 12) := by decide

/-! Encodings (spec/30_encoding.md R121 to R132, R137), written out bit by bit. -/

theorem test_decode_ld_reg : decode [0b01_010_011#8] = .ok (.ldDE, []) := rfl
theorem test_decode_ld_imm : decode [0b00_111_110#8, 0x3C#8] = .ok (.ldAD8 0x3C#8, []) := rfl
theorem test_decode_low_byte_first : decode [0b11_000_011#8, 0x50#8, 0x01#8] = .ok (.jpA16 0x0150#16, []) := rfl
theorem test_decode_pair : decode [0b00_11_1001#8] = .ok (.addHlSp, []) := rfl
theorem test_decode_push : decode [0b11_11_0101#8] = .ok (.pushAf, []) := rfl
theorem test_decode_alu : decode [0b10_101_110#8] = .ok (.xorAtHl, []) := rfl
theorem test_decode_condition : decode [0b110_11_000#8] = .ok (.retC, []) := rfl
theorem test_decode_rst : decode [0b11_101_111#8] = .ok (.rst28, []) := rfl
theorem test_decode_rotate : decode [0xCB#8, 0b00_101_001#8] = .ok (.sraC, []) := rfl
theorem test_decode_bit : decode [0xCB#8, 0b01_111_100#8] = .ok (.bit7H, []) := rfl
theorem test_decode_set_at_hl : decode [0xCB#8, 0b11_011_110#8] = .ok (.set3AtHl, []) := rfl
theorem test_decode_halt : decode [0b01_110_110#8, 0x00#8] = .ok (.halt, [0x00#8]) := rfl
theorem test_decode_illegal : decode [0xFC#8] = .ok (.illegalFC, []) := rfl
theorem test_decode_truncated : decode [0xCD#8, 0x00#8] = .error (.truncated 0xCD#8) := rfl
theorem test_decode_no_byte : decode [] = .error .noByte := rfl

/-- Words numbered as spec/opcode_table.json numbers them; operand words without bits are zeros. -/
theorem test_table_word_second_map : decodeTableWord 16 0x37CB = some .swapA := rfl
theorem test_table_word_operands : decodeTableWord 24 0x1234CD = some (.callA16 0x1234#16) := rfl
theorem test_table_word_short : decodeTableWord 8 0xC3 = some (.jpA16 0x0000#16) := rfl

/-! Which terms are instructions (Sys2Proof/WellFormed.lean): one refused term for each check. -/

theorem test_wellFormed_accepts : (Instr.stop 0x00#8).wellFormed = true := by decide
theorem test_wellFormed_stop :
    (Instr.stop 0x01#8).wellFormed = false ∧ (Instr.stop 0x01#8).stopOperandDefined = false := by decide
theorem test_wellFormed_prefix :
    (Instr.prefixCb 0x37#8).wellFormed = false ∧ (Instr.prefixCb 0x37#8).notPrefixRow = false := by decide
theorem test_wellFormed_illegal :
    Instr.illegalD3.wellFormed = false ∧ Instr.illegalD3.selectsInstruction = false := by decide

/-! Steps: spec/95_test_vectors.md section 2.8 and part 4 (P6). -/

/-- What `f` shows of the state after one step. -/
def stepped {α : Type} (f : State → α) (s : State) : Option α :=
  match step s with
  | .next t => some (f t)
  | .fault _ => none
  | .refused _ => none

/-- P6 step 1: from reset, one `NOP`. -/
theorem test_step_reset : stepped (fun t => (t.cpu.pc, t.clock, t.timer.ticks)) State.reset = some (0x0101, 4, 0) := by
  decide
/-- P6 step 2, placed as the first instruction. -/
theorem test_step_first_jump :
    stepped (fun t => (t.cpu.pc, t.clock)) (State.reset.withFetchWord 24 0x0150C3) = some (0x0150, 16) := by decide
theorem test_step_first_swap :
    stepped (fun t => (t.cpu.a, t.cpu.pc, t.clock)) (State.reset.withFetchWord 16 0x37CB) = some (0x10, 0x0102, 8) := by
  decide
/-- S1 steps 2 and 3: the instruction after `EI` runs, then the dispatch. -/
theorem test_step_after_ei :
    stepped (fun t => (t.cpu.pc, t.cpu.ime, t.cpu.imePending, t.clock))
      { m { z with pc := 0xC001, imePending := 2 } with ieReg := 1, ifReg := 1 } = some (0xC002, false, 1, 4) := by decide
theorem test_step_enabled :
    stepped (fun t => ((t.cpu.pc, t.cpu.ime, t.cpu.imePending), (t.ifReg, t.clock)))
      { m { z with pc := 0xC002, imePending := 1, sp := 0xDFF0 } with ieReg := 1, ifReg := 1 } =
      some ((0x0040, false, 0), (0, 20)) := by decide
/-- S5 step 2: the byte after `HALT` is read twice. -/
theorem test_step_halt_repeat :
    stepped (fun t => (t.cpu.pc, t.cpu.a, t.cpu.haltRepeat))
      { placed [(0xC001, 0x3C)] (m { z with pc := 0xC001, haltRepeat := true }) with ieReg := 4, ifReg := 4 } =
      some (0xC001, 0x01, false) := by decide
/-- S7 step 2: an idle step. -/
theorem test_step_idle :
    stepped (fun t => (t.cpu.pc, t.cpu.runState, t.clock))
      { m { z with pc := 0xC001, ime := true, runState := .halted } with ieReg := 4 } = some (0xC001, .halted, 4) := by decide
/-- S8 step 3: the wake with `IME` clear executes in the same step. -/
theorem test_step_wake :
    stepped (fun t => (t.cpu.pc, t.cpu.b, t.ifReg, t.cpu.runState))
      { placed [(0xC001, 0x04)] (m { z with pc := 0xC001, runState := .halted }) with ieReg := 4, ifReg := 4 } =
      some (0xC002, 0x01, 4, .running) := by decide
/-- S9 step 1: the lowest number first. -/
theorem test_step_dispatch_priority :
    stepped (fun t => ((t.cpu.pc, t.cpu.sp, t.ifReg), (at_ 0xCFFF t, at_ 0xCFFE t)))
      { m { z with pc := 0xC123, sp := 0xD000, ime := true } with ieReg := 0x1F, ifReg := 0x16 } =
      some ((0x0048, 0xCFFE, 0x14), (some 0xC1, some 0x23)) := by decide
/-- S10: the push wraps into `IE` after the source was chosen. -/
theorem test_step_dispatch_wraps :
    stepped (fun t => ((t.cpu.pc, t.cpu.sp, t.ifReg), t.ieReg))
      { m { z with pc := 0xC123, sp := 0x0000, ime := true } with ieReg := 1, ifReg := 1 } =
      some ((0x0040, 0xFFFE, 0), 0xC1) := by decide

/-! Devices: spec/95_test_vectors.md part 3. -/

/-- V-TIM-2. -/
theorem test_timer_reload :
    let t := timerAdvance 20 { m z with timer := { (m z).timer with tac := 5, tima := 0xFF, tma := 0x10, ticks := 12 } }
    (t.timer.ticks, t.timer.tima, t.ifReg) = (0, 0x11, 0b00100) := by decide
/-- V-TIM-3. -/
theorem test_timer_shortened_period :
    let t := timerAdvance 4 { m z with timer := { (m z).timer with tac := 5, ticks := 1000 } }
    (t.timer.ticks, t.timer.tima, t.ifReg) = (12, 0x3E, 0) := by decide +kernel
/-- V-DIV-1: a write clears the high byte only. -/
theorem test_div_write :
    let s := { m z with timer := { (m z).timer with divCounter := 0xAC37 } }
    (writeByte s 0xFF04 0x55).toOption.map (·.timer.divCounter) = some 0x0037 := by decide
/-- V-SER-1, the second row. -/
theorem test_serial_first_bit :
    let s := writeSc 0x81 { m z with serial := { (m z).serial with sb := 0xA5 } }
    let t := serialAdvance 512 s
    (s.serial.timer, readIo .sc s, t.serial.sb, readIo .sc t, t.ifReg) = (4096, 0xFF, 0x4B, 0xFF, 0) := by decide
/-- R377 with `SERIAL_IN` constant 0: the bit shifted in is 0. -/
theorem test_serial_constant_zero :
    let s := { m z with params := { Params.default false with serialIn := .bits [] false } }
    (serialAdvance 512 (writeSc 0x81 { s with serial := { s.serial with sb := 0xA5 } })).serial.sb = 0x4A := by decide
/-- V-JOY-1. -/
theorem test_joypad_line_falls :
    let s := buttonDown .left { m z with joypad := { p15 := true, p14 := false, buttons := 0 } }
    (readIo .p1 s, s.ifReg) = (0xED, 0b10000) := by decide
theorem test_joypad_no_line :
    let s := buttonDown .a { m z with joypad := { p15 := true, p14 := false, buttons := 0 } }
    (readIo .p1 s, s.ifReg) = (0xEF, 0) := by decide

/-- The `MBC1` of V-MBC-1. -/
def mbc1 : State := { m z with cart := { Cart.blank with kind := .mbc1, romBanks := 128 } }

/-- What `f` shows after stores. -/
def storing {α : Type} (ws : List (Word × Byte)) (f : State → α) (s : State) : Option α :=
  match ws.foldlM (fun t w => writeByte t w.1 w.2) s with
  | .ok t => some (f t)
  | .error _ => none

/-- V-MBC-1: the bank that `0x40` selects, and `bank_mode` 1. -/
theorem test_mbc1_remap : storing [(0x4000, 0x02), (0x2000, 0x00)] romBank mbc1 = some 0x41 := by decide
theorem test_mbc1_bank_mode :
    storing [(0x4000, 0x03), (0x2000, 0x12), (0x6000, 0x01)] romBank mbc1 = some 0x12 := by decide
/-- V-MBC-2, `MBC5`. -/
theorem test_mbc5_bank :
    let s := { mbc1 with cart := { mbc1.cart with kind := .mbc5, romBanks := 512 } }
    storing [(0x3000, 0x01), (0x2100, 0x34)] romBank s = some 0x134 := by decide
/-- V-RTC-1. -/
theorem test_rtc_day_overflow :
    ({ sec := 59, min := 59, hour := 23, day := 511, halt := false, carry := false } : RtcRegs).nextSecond =
      { sec := 0, min := 0, hour := 0, day := 0, halt := false, carry := true } := by decide
/-- V-RTC-2: `0x00`, `0x02` do not latch, `0x00`, `0x01` do. -/
theorem test_rtc_latch :
    let r : Rtc := { live := RtcRegs.zero, latched := { RtcRegs.zero with sec := 59 }, latchPrev := 0xFF, lastWall := 0 }
    ((writeLatch 0x02 (writeLatch 0x00 (writeLatch 0x01 r))).latched.sec,
      (writeLatch 0x01 (writeLatch 0x00 r)).latched.sec) = (59, 0) := by decide
/-- V-BAT-1: the clock words of a blob. -/
theorem test_battery_words :
    let r : RtcRegs := { sec := 56, min := 34, hour := 12, day := 300, halt := false, carry := false }
    r.words = [56, 34, 12, 44, 1] := by decide
/-- E7: header bytes `0xC0` and `0x13`. -/
theorem test_header_color : colorModeOf 0xC0 = true := by decide
/-- V-APU-1: rows 1, 4 and 5. -/
def triggered (nr10 lo hi : Byte) : Option (Option Byte) :=
  storing [(0xFF12, 0xF0), (0xFF10, nr10), (0xFF13, lo), (0xFF14, hi)] (at_ 0xFF26) (m z)
theorem test_sweep_shift_zero : triggered 0x00 0xFF 0x87 = some (some 0xF1) := by decide
theorem test_sweep_second_calculation : triggered 0x11 0x55 0x85 = some (some 0xF0) := by decide
theorem test_sweep_in_range : triggered 0x23 0xE8 0x83 = some (some 0xF1) := by decide
/-- V-APU-2: power off. -/
theorem test_sound_power_off :
    storing [(0xFF26, 0x11)] (fun t => (at_ 0xFF26 t, at_ 0xFF24 t, at_ 0xFF11 t, t.apu.mix)) (m z) =
      some (some 0x70, some 0x00, some 0x3F, (0, 0)) := by decide
/-- V-RST-1, the color column. -/
theorem test_reset_color :
    let s := State.launch { Cart.blank with colorMode := true } (Params.default true) (Reset.postBoot true 0)
    (af s, bc s, de s, hl s) = (0x1180, 0x0000, 0xFF56, 0x000D) ∧
      (at_ 0xFF4D s, at_ 0xFF70 s, at_ 0xFF02 s) = (some 0x7E, some 0xF8, some 0x7C) := by decide
/-- R490 with R480: without a blob the first slice finds the clock at its own time. -/
theorem test_first_slice_clock : (Reset.postBoot true 77).rtc.resume 77 = (Reset.postBoot true 77).rtc := by decide
/-- R580 with a `CYCLES` that gives `NOP` the cost 0: the slice goes on until its sum reaches the budget. -/
theorem test_slice_with_free_nop :
    let s := placed [(0xC002, 0x04)] { m z with params := { (m z).params with cycles := .table [0] [0] [] } }
    ((advance 2 4 0 [] s).isSome, (advance 3 4 0 [] s).map fun t => (t.cpu.pc, t.cpu.b, t.clock)) =
      (false, some (0xC003, 0x01, 4)) := by decide
/-- V-PPU-1: the entries to modes 3 and 0 in line 0. -/
def cycleOf (lineCycle : Nat) (mode : PpuMode) : Option (PpuMode × Option Byte) :=
  match ppuCycle { m z with ppu := { (m z).ppu with lcdc := 0x91, lineCycle := lineCycle, mode := mode } } with
  | .ok t => some (t.ppu.mode, at_ 0xFF41 t)
  | .error _ => none
theorem test_enter_mode3 : cycleOf 79 .oamScan = some (.transfer, some 0x87) := by decide
theorem test_enter_mode0 : cycleOf 251 .transfer = some (.hblank, some 0x84) := by decide
/-- V-BUS-1: video RAM in mode 3, OAM in mode 2. -/
theorem test_hidden_memory :
    let s := { m z with vram := [(0, 0x3C)], oam := [(0, 0x55)] }
    let t := { s with ppu := { s.ppu with mode := .transfer } }
    let u := { s with ppu := { s.ppu with mode := .oamScan } }
    (at_ 0x8000 t, at_ 0xFE00 u, at_ 0x8000 s, at_ 0xFE00 s) = (some 0xFF, some 0xFF, some 0x3C, some 0x55) := by
  decide

/-! Witnesses: concrete values that meet the hypotheses of a statement, one for each of its clauses. -/

/-- Bytes at the program counter. -/
def code (bs : List Byte) : State := placeBytes bs 0xC000 (m z)

/-- The computation does not end in a fault. -/
def isOk {α : Type} (r : Except Fault α) : Bool :=
  match r with
  | .ok _ => true
  | .error _ => false

theorem exists_ok {α : Type} {r : Except Fault α} (h : isOk r = true) : ∃ t, r = .ok t := by
  cases r with
  | ok t => exact ⟨t, rfl⟩
  | error e => cases h

theorem exists_ok_ok {α β : Type} {r : Except Fault α} {g : α → Except Fault β} (h : isOk (r >>= g) = true) :
    ∃ t t', r = .ok t ∧ g t = .ok t' := by
  cases r with
  | ok t => exact ⟨t, (exists_ok h).imp fun t' e => ⟨rfl, e⟩⟩
  | error e => cases h

/-- The answer is a next state. -/
def answers (r : Result) : Bool :=
  match r with
  | .next _ => true
  | .fault _ => false
  | .refused _ => false

theorem exists_next {r : Result} (h : answers r = true) : ∃ t, r = .next t := by
  cases r with
  | next t => exact ⟨t, rfl⟩
  | fault e => cases h
  | refused q => cases h

theorem memoryInv_of {s : State} (h : [s.vram, s.wram, s.oam, s.hram, s.cram, s.cart.rom, s.apu.waveRam, s.ppu.bgPal,
    s.ppu.objPal].all Memory.wf = true) : MemoryInv s := by
  simpa [MemoryInv] using h

theorem witness_DecodeOfEncode : (Instr.stop 0x05#8).notPrefixRow = true := rfl
theorem witness_EncodeOfDecode : decode [0xCB#8, 0x37#8, 0x00#8] = .ok (.swapA, [0x00#8]) := rfl

/-- The state in which `exec` runs: `PC` past the instruction. -/
def fetched (s : State) (pc : Word) : State :=
  { wake (updateIme s) with cpu := { (wake (updateIme s)).cpu with pc := pc, haltRepeat := false } }

/-- `NOP` runs. -/
theorem witness_StepRunsInstruction_next :
    let s := code [0x00]
    s.fault = none ∧ s.cpu.runState ≠ .stopped ∧ dueInterrupt (updateIme s) = none ∧
      idling (updateIme s) = false ∧ Instr.nop.notPrefixRow = true ∧ s.cpu.haltRepeat = false ∧
      readByte (wake (updateIme s)) (s.cpu.pc + BitVec.ofNat 16 (0 - 0)) = .ok ((encode .nop).getD 0 0) ∧
      exec .nop (fetched s 0xC001) = .next (fetched s 0xC001) ∧ ∃ t, tick 4 (fetched s 0xC001) = .ok t :=
  ⟨rfl, by decide, rfl, rfl, rfl, rfl, by decide, rfl, exists_ok (by decide)⟩

/-- S6: with `halt_repeat` set, the byte `0x3E` is the opcode and its own operand. -/
theorem witness_StepRunsInstruction_repeat :
    let s := placed [(0xC000, 0x3E)] (m { z with haltRepeat := true })
    s.fault = none ∧ s.cpu.runState ≠ .stopped ∧ dueInterrupt (updateIme s) = none ∧
      idling (updateIme s) = false ∧ s.cpu.haltRepeat = true ∧
      (∀ k, k < (encode (.ldAD8 0x3E)).length →
        readByte (wake (updateIme s)) (s.cpu.pc + BitVec.ofNat 16 (k - 1)) = .ok ((encode (.ldAD8 0x3E)).getD k 0)) ∧
      answers (exec (.ldAD8 0x3E) (fetched s 0xC001)) = true := by decide

/-- An illegal row faults. -/
theorem witness_StepRunsInstruction_fault :
    let s := code [0xD3]
    s.fault = none ∧ s.cpu.runState ≠ .stopped ∧ dueInterrupt (updateIme s) = none ∧
      idling (updateIme s) = false ∧
      readByte (wake (updateIme s)) (s.cpu.pc + BitVec.ofNat 16 (0 - 0)) = .ok ((encode .illegalD3).getD 0 0) ∧
      exec .illegalD3 (fetched s 0xC001) = .fault (.illegalOpcode 0xD3) :=
  ⟨rfl, by decide, rfl, rfl, by decide, rfl⟩

/-- A block of a horizontal-blank transfer that starts in the next cycle, from an address without a device. -/
def blockFaults (c : Cpu) : State :=
  { m c with
    ppu := { (m z).ppu with lcdc := 0x91, lineCycle := 251, mode := .transfer }
    bus := { (m z).bus with hdmaActive := true, hdmaSrc := 0xFEA0 }
    params := { (m z).params with unmapped := .fault } }

theorem witness_StepRunsInstruction_tickFault :
    let s := blockFaults z
    s.fault = none ∧ s.cpu.runState ≠ .stopped ∧ dueInterrupt (updateIme s) = none ∧
      idling (updateIme s) = false ∧
      readByte (wake (updateIme s)) (s.cpu.pc + BitVec.ofNat 16 (0 - 0)) = .ok ((encode .nop).getD 0 0) ∧
      exec .nop (fetched s 0xC001) = .next (fetched s 0xC001) ∧
      tick 4 (fetched s 0xC001) = .error (.busGap 0xFEA0) :=
  ⟨rfl, by decide, rfl, rfl, by decide, rfl, rfl⟩

/-- Two requests, with interrupts enabled. -/
def due : State := { m { z with ime := true } with ieReg := 0x1F, ifReg := 0x16 }

theorem witness_StepDispatches :
    due.fault = none ∧ due.cpu.runState ≠ .stopped ∧ (updateIme due).cpu.ime = true ∧ pending due ≠ 0 ∧
      ∃ t t', takeInterrupt .stat (updateIme due) = .ok t ∧ tick 20 t = .ok t' :=
  ⟨rfl, by decide, rfl, by decide, exists_ok_ok (by decide)⟩

/-- The error a computation ends in. -/
def errorOf {α : Type} (r : Except Fault α) : Option Fault :=
  match r with
  | .ok _ => none
  | .error e => some e

theorem of_errorOf {α : Type} {r : Except Fault α} {e : Fault} (h : errorOf r = some e) : r = .error e := by
  cases r with
  | ok t => cases h
  | error e' => cases h; rfl

theorem ok_then_error {α β : Type} {r : Except Fault α} {g : α → Except Fault β} {e : Fault} (hr : isOk r = true)
    (h : errorOf (r >>= g) = some e) : ∃ t, r = .ok t ∧ g t = .error e := by
  cases r with
  | ok t => exact ⟨t, rfl, of_errorOf h⟩
  | error e' => cases hr

/-- The push of the dispatch goes to an address without a device. -/
theorem witness_StepDispatches_pushFault :
    let s := { m { z with ime := true, sp := 0xFEA1 } with
      ieReg := 1, ifReg := 1, params := { (m z).params with unmapped := .fault } }
    takeInterrupt .vblank (updateIme s) = .error (.busGap 0xFEA0) := of_errorOf (by decide)

/-- A transfer block faults in the `Tick` of the dispatch. -/
theorem witness_StepDispatches_tickFault :
    let s := { blockFaults { z with ime := true } with ieReg := 1, ifReg := 1 }
    ∃ t, takeInterrupt .vblank (updateIme s) = .ok t ∧ tick 20 t = .error (.busGap 0xFEA0) :=
  ok_then_error (by decide) (by decide)

theorem witness_TakeInterruptEffect :
    MemoryInv due ∧ plainCell due (due.cpu.sp - 1) = some (.hram, 0x7D) ∧
      plainCell due (due.cpu.sp - 2) = some (.hram, 0x7C) := ⟨memoryInv_of rfl, rfl, rfl⟩

theorem witness_StepStoppedOrHalted_fault :
    { m z with fault := some (.illegalOpcode 0xD3) }.fault = some (.illegalOpcode 0xD3) := rfl
theorem witness_StepStoppedOrHalted_stopped :
    (m { z with runState := .stopped }).fault = none ∧ (m { z with runState := .stopped }).cpu.runState = .stopped :=
  ⟨rfl, rfl⟩
theorem witness_StepStoppedOrHalted_idle :
    let s := m { z with runState := .halted }
    s.fault = none ∧ s.cpu.runState = .halted ∧ pending s = 0 ∧ ∃ t, tick 4 (updateIme s) = .ok t :=
  ⟨rfl, rfl, rfl, exists_ok (by decide)⟩
theorem witness_StepStoppedOrHalted_idleFault :
    let s := blockFaults { z with runState := .halted }
    s.fault = none ∧ s.cpu.runState = .halted ∧ pending s = 0 ∧ tick 4 (updateIme s) = .error (.busGap 0xFEA0) :=
  ⟨rfl, rfl, rfl, of_errorOf (by decide)⟩
theorem witness_StepStoppedOrHalted_wake :
    let s := { m { z with runState := .halted } with ieReg := 1, ifReg := 1 }
    s.fault = none ∧ s.cpu.runState = .halted ∧ pending s ≠ 0 ∧ (updateIme s).cpu.ime = false :=
  ⟨rfl, rfl, by decide, rfl⟩

theorem witness_HaltRepeatFetch_fault :
    let s := { m { z with pc := 0xFEFF } with params := { (m z).params with unmapped := .fault } }
    readByte s s.cpu.pc = .error (.busGap 0xFEFF) := by decide
theorem witness_HaltRepeatFetch :
    (readByte (code [0x3C]) (code [0x3C]).cpu.pc = .ok 0x3C ∧ (code [0x3C]).cpu.haltRepeat = false) ∧
      (readByte (m { z with haltRepeat := true, pc := 0xFFFF }) 0xFFFF = .ok 0x00 ∧
        (m { z with haltRepeat := true }).cpu.haltRepeat = true) := ⟨⟨by decide, rfl⟩, by decide, rfl⟩

theorem witness_EnableDelay :
    (z.ime = false ∧ z.imePending = 0) ∧ ({ z with ime := true } : Cpu).ime = true ∧
      ({ z with imePending := 2 } : Cpu).imePending = 2 ∧ ({ z with imePending := 1 } : Cpu).imePending = 1 := by decide

theorem witness_IllegalOpcodesFault : (0xFD#8) ∈ [0xD3#8, 0xFD#8] := by decide

theorem witness_HaltAndStop :
    let s := { m z with ieReg := 0x04, ifReg := 0x04 }
    (due.ieReg.extractLsb' 0 5 &&& due.ifReg ≠ 0 ∧ (m z).ieReg.extractLsb' 0 5 &&& (m z).ifReg = 0) ∧
      (s.ieReg.extractLsb' 0 5 &&& s.ifReg ≠ 0 ∧ s.params.haltPending = .repeatByte) ∧
      ({ s with params := { s.params with haltPending := .fallthrough } }.params.haltPending = .fallthrough) ∧
      (0x01#8 ≠ 0x00#8) ∧ (s.cart.colorMode = false ∨ s.key1Armed = false) ∧
      ({ s with cart := { s.cart with colorMode := true }, key1Armed := true }.cart.colorMode = true ∧
        { s with cart := { s.cart with colorMode := true }, key1Armed := true }.key1Armed = true) := by decide

/-- `STOP` at an armed switch. -/
def atSwitch : State :=
  placed [(0xC000, 0x10)] { m z with cart := { Cart.blank with colorMode := true }, key1Armed := true }

theorem witness_HaltAndStop_switch :
    (atSwitch.cart.colorMode = true ∧ atSwitch.key1Armed = true ∧ atSwitch.params.cycles = .standard ∧
      atSwitch.fault = none ∧ atSwitch.cpu.runState = .running ∧ atSwitch.cpu.haltRepeat = false ∧
      dueInterrupt (updateIme atSwitch) = none ∧ readByte atSwitch atSwitch.cpu.pc = .ok 0x10 ∧
      readByte atSwitch (atSwitch.cpu.pc + 1) = .ok 0x00) ∧
      isOk (ppuAdvance 2 { atSwitch with cpu := { atSwitch.cpu with pc := 0xC002, speedShift := true } }) = true := by
  decide

/-- A byte behind `HL` and behind the other addresses of the loads. -/
def pointing : State :=
  placed [(0xC100, 0x9C), (0xFF81, 0x44)]
    (m { z with a := 0x7F, b := 0xC1, c := 0x81, d := 0xC1, e := 0x00, h := 0xC1, l := 0x00 })

/-- `HL` at an address without a device, under the fault policy. -/
def unmapped : State :=
  { m { z with h := 0xFE, l := 0xA0 } with params := { (m z).params with unmapped := .fault } }

theorem witness_LoadFromMemory :
    LoadForm (.ldFromHl .h) .h 0xC100 pointing ∧ LoadForm .ldAFromBc .a 0xC181 pointing ∧
      LoadForm .ldAFromDe .a 0xC100 pointing ∧ LoadForm (.ldAFromAbs 0xFFFF) .a 0xFFFF pointing ∧
      LoadForm (.ldhAFromImm 0xFF) .a 0xFFFF pointing ∧ LoadForm .ldhAFromC .a 0xFF81 pointing ∧
      readByte pointing 0xC100 = .ok 0x9C ∧ readByte pointing (hl pointing) = .ok 0x9C :=
  ⟨.inl ⟨rfl, rfl⟩, .inr (.inl ⟨rfl, rfl, rfl⟩), .inr (.inr (.inl ⟨rfl, rfl, rfl⟩)),
    .inr (.inr (.inr (.inl ⟨rfl, rfl⟩))), .inr (.inr (.inr (.inr (.inl ⟨0xFF, rfl, rfl, rfl⟩)))),
    .inr (.inr (.inr (.inr (.inr ⟨rfl, rfl, rfl⟩)))), by decide, by decide⟩
theorem witness_LoadFromMemory_fault :
    LoadForm (.ldFromHl .b) .b 0xFEA0 unmapped ∧ readByte unmapped (hl unmapped) = .error (.busGap 0xFEA0) :=
  ⟨.inl ⟨rfl, rfl⟩, rfl⟩

theorem witness_StoreToMemory :
    StoreForm (.ldToHl .l) 0xC100 0x00 pointing ∧ StoreForm (.ldToHlImm 0xA5) 0xC100 0xA5 pointing ∧
      StoreForm .ldToBcA 0xC181 0x7F pointing ∧ StoreForm .ldToDeA 0xC100 0x7F pointing ∧
      StoreForm (.ldToAbsA 0xFFFF) 0xFFFF 0x7F pointing ∧ StoreForm (.ldhToImmA 0x00) 0xFF00 0x7F pointing ∧
      StoreForm .ldhToCA 0xFF81 0x7F pointing ∧ (∃ t, writeByte pointing 0xC100 0x00 = .ok t) ∧
      ∃ u, writeByte pointing (hl pointing) pointing.cpu.a = .ok u :=
  ⟨.inl ⟨.l, rfl, rfl, rfl⟩, .inr (.inl ⟨rfl, rfl⟩), .inr (.inr (.inl ⟨rfl, rfl, rfl⟩)),
    .inr (.inr (.inr (.inl ⟨rfl, rfl, rfl⟩))), .inr (.inr (.inr (.inr (.inl ⟨rfl, rfl⟩)))),
    .inr (.inr (.inr (.inr (.inr (.inl ⟨0x00, rfl, rfl, rfl⟩))))),
    .inr (.inr (.inr (.inr (.inr (.inr ⟨rfl, rfl, rfl⟩))))), exists_ok (by decide), exists_ok (by decide)⟩
theorem witness_StoreToMemory_fault :
    StoreForm (.ldToHl .b) 0xFEA0 0x00 unmapped ∧
      writeByte unmapped (hl unmapped) unmapped.cpu.a = .error (.busGap 0xFEA0) :=
  ⟨.inl ⟨.b, rfl, rfl, rfl⟩, rfl⟩

/-- Plain storage of each kind, at the ends of its range and through the echo. -/
theorem witness_PlainStoreEffect :
    MemoryInv (m z) ∧ plainCell (m z) 0x8000 = some (.vram, 0) ∧ plainCell (m z) 0x9FFF = some (.vram, 0x1FFF) ∧
      plainCell (m z) 0xC000 = some (.wram, 0) ∧ plainCell (m z) 0xFDFF = some (.wram, 0x1DFF) ∧
      plainCell (m z) 0xFE9F = some (.oam, 0x9F) ∧ plainCell (m z) 0xFFFE = some (.hram, 0x7E) :=
  ⟨memoryInv_of rfl, rfl, rfl, rfl, rfl, rfl, rfl⟩
theorem witness_PlainStoreEffect_cartridge :
    plainCell { m z with cart := { Cart.blank with kind := .mbc5, hasRam := true, ramSize := 0x8000 },
                         mbc := { Mbc.launch with ramEnabled := true, ramSelect := 3 } } 0xBFFF =
      some (.cram, 0x7FFF) := rfl

theorem witness_StoreStackPointer :
    ∃ s1 s2, writeByte (m z) 0xDFFF (loByte (m z).cpu.sp) = .ok s1 ∧
      writeByte s1 (0xDFFF + 1) (hiByte (m z).cpu.sp) = .ok s2 := exists_ok_ok (by decide)

theorem witness_PushForms :
    PushForm (.push .bc) 0xC181 pointing ∧ PushForm (.push .de) 0xC100 pointing ∧
      PushForm (.push .hl) 0xC100 pointing ∧
      PushForm .pushAf 0x7F00 pointing ∧
      ∃ s1 s2, writeByte { pointing with cpu := { pointing.cpu with sp := pointing.cpu.sp - 1 } } (pointing.cpu.sp - 1)
          0xC1 = .ok s1 ∧
        writeByte { s1 with cpu := { s1.cpu with sp := pointing.cpu.sp - 2 } } (pointing.cpu.sp - 2) 0x00 = .ok s2 :=
  ⟨.inl ⟨rfl, rfl⟩, .inr (.inl ⟨rfl, rfl⟩), .inr (.inr (.inl ⟨rfl, rfl⟩)), .inr (.inr (.inr ⟨rfl, rfl, rfl⟩)),
    exists_ok_ok (by decide)⟩

theorem witness_StackStores :
    (PushForm (.push .de) 0xC100 pointing ∧ CallForm (.call 0xFFFF) 0xFFFF pointing ∧
      CallForm (.callIf .nz 0x0000) 0x0000 pointing ∧ CallForm (.rst .t38) 0x0038 pointing) ∧ MemoryInv pointing ∧
      plainCell pointing (pointing.cpu.sp - 1) = some (.hram, 0x7D) ∧
      plainCell pointing (pointing.cpu.sp - 2) = some (.hram, 0x7C) :=
  ⟨⟨.inr (.inl ⟨rfl, rfl⟩), .inl rfl, .inr (.inl ⟨.nz, rfl, rfl⟩), .inr (.inr ⟨.t38, rfl, rfl⟩)⟩,
    memoryInv_of rfl, rfl, rfl⟩

theorem witness_PopForms :
    let s := placed [(0xCFFE, 0xCD), (0xCFFF, 0xAB)] (m { z with sp := 0xCFFE })
    readByte s s.cpu.sp = .ok 0xCD ∧ readByte s (s.cpu.sp + 1) = .ok 0xAB := by decide

theorem witness_AluOperand :
    AluOperand .sbc 0xC1 (.alu .sbc .h) pointing ∧ AluOperand .add 0xFF (.aluImm .add 0xFF) pointing ∧
      AluOperand .cp 0x9C (.aluAtHl .cp) pointing :=
  ⟨.inl ⟨.h, rfl, rfl⟩, .inr (.inl rfl), .inr (.inr ⟨rfl, by decide⟩)⟩

theorem witness_FaultCauses :
    readByte unmapped (hl unmapped) = .error (.busGap 0xFEA0) ∧ exec .illegalD3 (m z) = .fault (.illegalOpcode 0xD3) ∧
      exec (.stop 0x01) (m z) = .fault (.reservedStopOperand 0x01) ∧ exec .incAtHl unmapped = .fault (.busGap 0xFEA0) ∧
      exec (.ldhAAtA8 0x03) unmapped = .fault (.busGap 0xFF03) :=
  ⟨rfl, rfl, rfl, rfl, rfl⟩

/-- The stack at the edges of an unmapped range, under the fault policy. -/
def edge (sp : Word) : State :=
  { m { z with sp := sp } with params := { (m z).params with unmapped := .fault } }

theorem witness_FailingAccessesFault_push :
    PushForm (.push .bc) 0x0000 (edge 0xFEA1) ∧ CallForm (.rst .t38) 0x0038 (edge 0xFEA1) ∧
      writeByte { edge 0xFEA1 with cpu := { z with sp := 0xFEA0 } } 0xFEA0 0x00 = .error (.busGap 0xFEA0) ∧
      ∃ s1, writeByte { edge 0xFF01 with cpu := { z with sp := 0xFF00 } } 0xFF00 0x00 = .ok s1 ∧
        writeByte { s1 with cpu := { s1.cpu with sp := 0xFEFF } } 0xFEFF 0x00 = .error (.busGap 0xFEFF) :=
  ⟨.inl ⟨rfl, rfl⟩, .inr (.inr ⟨.t38, rfl, rfl⟩), of_errorOf (by decide), ok_then_error (by decide) (by decide)⟩
theorem witness_FailingAccessesFault_pop :
    readByte (edge 0xFEA0) 0xFEA0 = .error (.busGap 0xFEA0) ∧ (∃ lo, readByte (edge 0xFE9F) 0xFE9F = .ok lo) ∧
      readByte (edge 0xFE9F) (0xFE9F + 1) = .error (.busGap 0xFEA0) :=
  ⟨by decide, exists_ok (by decide), by decide⟩
theorem witness_FailingAccessesFault_storeSp :
    writeByte (edge 0) 0xFEA0 (loByte (edge 0).cpu.sp) = .error (.busGap 0xFEA0) ∧
      ∃ s1, writeByte (edge 0) 0xFE9F (loByte (edge 0).cpu.sp) = .ok s1 ∧
        writeByte s1 (0xFE9F + 1) (hiByte (edge 0).cpu.sp) = .error (.busGap 0xFEA0) :=
  ⟨of_errorOf (by decide), ok_then_error (by decide) (by decide)⟩

/-- `HL` at `HDMA5` in color mode, the source of a general transfer at an address without a device. -/
def transferFaults (idle : Byte) : State :=
  { edge 0 with
    cpu := { z with h := 0xFF, l := 0x55 }
    cart := { Cart.blank with colorMode := true }
    bus := { (m z).bus with hdmaSrc := 0xFEA0, hdma5Idle := idle } }

theorem witness_FailingAccessesFault_rewrite :
    (readByte (transferFaults 0xFF) 0xFF55 = .ok 0xFF ∧ errorOf (writeByte (transferFaults 0xFF) 0xFF55 0x00) =
        some (.busGap 0xFEA0) ∧ (0x00#8) = 0xFF + 1) ∧
      (readByte (transferFaults 0x80) 0xFF55 = .ok 0x80 ∧ errorOf (writeByte (transferFaults 0x80) 0xFF55 0x7F) =
        some (.busGap 0xFEA0) ∧ (0x7F#8) = 0x80 - 1) ∧
      (0x7F#8 = 0xFF &&& ~~~(1#8 <<< bitIndex .n7)) ∧
      (errorOf (writeByte (transferFaults 0x01) 0xFF55 0x01) = some (.busGap 0xFEA0) ∧
        (0x01#8 = 0x01 ||| (1#8 <<< bitIndex .n0))) ∧
      (errorOf (writeByte (transferFaults 0x80) 0xFF55 0x00) = some (.busGap 0xFEA0) ∧
        ∀ i, i < 8 → (0x00#8).getLsbD i = rotatedBit .sla 0x80 false i) := by decide

theorem witness_IncDecMemory :
    readByte pointing (hl pointing) = .ok 0x9C ∧ (∃ u, writeByte pointing (hl pointing) 0x9D = .ok u) ∧
      (0x9D#8).toNat = ((0x9C#8).toNat + 1) % 256 ∧ (∃ u, writeByte pointing (hl pointing) 0x9B = .ok u) ∧
      (0x9B#8).toNat = ((0x9C#8).toNat + 255) % 256 := 
  ⟨by decide, exists_ok (by decide), rfl, exists_ok (by decide), rfl⟩

theorem witness_DaaDecimal : 99 < 100 ∧ (m { z with a := 0x99 }).cpu.a.toNat = 16 * (99 / 10) + 99 % 10 := by decide

theorem witness_RotateMemory :
    readByte pointing (hl pointing) = .ok 0x9C ∧
      (∀ i, i < 8 → (0x39#8).getLsbD i = rotatedBit .rlc 0x9C pointing.cpu.cf i) ∧
      ∃ u, writeByte pointing (hl pointing) 0x39 = .ok u := ⟨by decide, by decide, exists_ok (by decide)⟩

theorem witness_RotateRegister : Form.rla = .rla ∧ RotOp.rl = .rl := ⟨rfl, rfl⟩

theorem witness_ResetAndSetBits :
    readByte pointing (hl pointing) = .ok 0x9C ∧ (∃ u, writeByte pointing (hl pointing) 0x1C = .ok u) ∧
      (∀ i, i < 8 → (0x1C#8).getLsbD i = (decide (i ≠ bitIndex .n7) && (0x9C#8).getLsbD i)) ∧
      (∃ u, writeByte pointing (hl pointing) 0x9D = .ok u) ∧
      ∀ i, i < 8 → (0x9D#8).getLsbD i = (decide (i = bitIndex .n0) || (0x9C#8).getLsbD i) :=
  ⟨by decide, exists_ok (by decide), by decide, exists_ok (by decide), by decide⟩

theorem witness_conditions :
    condHolds .nz z.zf z.cf = true ∧ condHolds .z z.zf z.cf = false ∧ condHolds .nc z.zf z.cf = true ∧
      condHolds .c z.zf z.cf = false := by decide

theorem witness_Calls :
    CallForm (.rst .t38) 0x0038 pointing ∧
      ∃ s1 s2, writeByte { pointing with cpu := { pointing.cpu with sp := pointing.cpu.sp - 1 } } (pointing.cpu.sp - 1)
          (hiByte pointing.cpu.pc) = .ok s1 ∧
        writeByte { s1 with cpu := { s1.cpu with sp := pointing.cpu.sp - 2 } } (pointing.cpu.sp - 2)
          (loByte pointing.cpu.pc) = .ok s2 := 
  ⟨.inr (.inr ⟨.t38, rfl, rfl⟩), exists_ok_ok (by decide)⟩

theorem witness_Returns :
    let s := placed [(0xDFF0, 0x03), (0xDFF1, 0xC0)] (m { z with sp := 0xDFF0 })
    readByte s s.cpu.sp = .ok 0x03 ∧ readByte s (s.cpu.sp + 1) = .ok 0xC0 ∧ s.params.retiDelay = false ∧
      { s with params := { s.params with retiDelay := true } }.params.retiDelay = true := by decide

theorem witness_EveryInstructionCompletes :
    (m z).params.unmapped = .ffIgnore ∧ Instr.halt.selectsInstruction = true ∧ Instr.halt.stopOperandDefined = true :=
  ⟨rfl, by decide, rfl⟩

theorem witness_ControlStateWriters : ∃ t, exec .halt (m z) = .next t := exists_next (by decide)
theorem witness_CostsAreMultiplesOfFour : (m z).params.cycles = .standard := rfl

/-- A state of line 0 with the display on. -/
def lit : State := { code [0x00] with ppu := { (m z).ppu with lcdc := 0x91, lineCycle := 100, mode := .transfer } }

theorem witness_StepKeepsMemory : MemoryInv lit ∧ ∃ t, step lit = .next t :=
  ⟨memoryInv_of rfl, exists_next (by decide)⟩

theorem ppuInv_lit : PpuInv lit := by
  unfold PpuInv
  decide

theorem witness_StepKeepsScanline : PpuInv lit ∧ ∃ t, step lit = .next t := ⟨ppuInv_lit, exists_next (by decide)⟩
theorem witness_StepKeepsScanline_off : PpuInv (code [0x00]) ∧ ∃ t, step (code [0x00]) = .next t :=
  ⟨by unfold PpuInv; decide, exists_next (by decide)⟩

/-- A state in the middle of everything: an enable pending, the timer on, a serial transfer in progress. -/
def busy : State :=
  { lit with
    cpu := { z with imePending := 2 }
    timer := { lit.timer with tac := 5, ticks := 15 }
    serial := { lit.serial with scStart := true, scInternal := true, timer := 4096 }
    ppu := { lit.ppu with lineBuf := List.replicate 160 { ci := 0, prio := false, pixel := .shade 3 },
                          frame := List.replicate 144 (List.replicate 160 (.shade 3)) } }

theorem screenInv_busy : ScreenInv busy := by
  refine ⟨by simp [busy], by simp [busy], ?_, by decide, by decide⟩
  intro row h
  rw [(List.mem_replicate.mp h).2, List.length_replicate]

theorem witness_StepKeepsRanges :
    EnableInv busy ∧ MonoInv busy ∧ ScreenInv busy ∧ SoundInv busy.apu ∧ TimerInv busy ∧ SerialInv busy ∧ RtcInv busy ∧
      MbcInv busy ∧ TransferInv busy ∧ ∃ t, step busy = .next t :=
  ⟨by unfold EnableInv; decide, by unfold MonoInv; decide, screenInv_busy, by unfold SoundInv; decide,
    by unfold TimerInv; decide, by unfold SerialInv; decide, by unfold RtcInv RtcRegs.inRange; decide, trivial,
    by unfold TransferInv; decide, exists_next (by decide)⟩

theorem witness_FrameIsConstant :
    (PpuInv lit ∧ lcdcBit lit 7 = true ∧ lit.bus.hdmaActive = false ∧ ∃ t, ppuAdvance 70224 lit = .ok t) ∧
      PpuInv (m z) ∧ lcdcBit (m z) 7 = false :=
  ⟨⟨ppuInv_lit, rfl, rfl, ppuAdvance_total 70224 rfl⟩, by unfold PpuInv; decide, rfl⟩

theorem witness_DisplayRules :
    readByte lit 0xFF41 = .ok 0x87 ∧ (lcdcBit lit 7 = true ∧ (0x11#8).getLsbD 7 = false) ∧
      (lcdcBit (m z) 7 = false ∧ (0x91#8).getLsbD 7 = true) := ⟨rfl, ⟨rfl, rfl⟩, rfl, rfl⟩

theorem witness_RomAndBanks :
    (0x3FFF#16).toNat < 0x4000 ∧ 0x4000 ≤ (0x4000#16).toNat ∧ 0 < mbc1.cart.romBanks ∧
    (0x7FFF#16).toNat < 0x8000 ∧ (0x3FFF#16).toNat < 0x4000 ∧ mbc1.cart.kind = .mbc1 ∧ mbc1.cart.romBanks = 128 ∧
      mbc1.mbc.bankMode = false ∧ mbc1.mbc.romLo.toNat < 32 := by decide

theorem witness_OamDma : (m z).oam.wf = true ∧ (0xDF#8).toNat < 0xE0 ∧ 0xE0 ≤ (0xE0#8).toNat := by decide

/-- A horizontal-blank transfer of the last block of video RAM, from `src`, with `len` blocks to follow. -/
def transfer (src : Word) (len : BitVec 7) (p : UnmappedPolicy) : State :=
  { m z with
    params := { Params.default false with unmapped := p }
    bus := { (m z).bus with hdmaActive := true, hdmaSrc := src, hdmaDst := 0x1FF0, hdmaLen := len } }

/-- The hypotheses on the state and its source bytes. -/
def transferReady (s : State) : Prop :=
  s.vram.wf = true ∧ s.bus.hdmaActive = true ∧ TransferInv s ∧
    ∀ i, i < 16 → ∃ b, readWith false s (s.bus.hdmaSrc + BitVec.ofNat 16 i) = .ok b

theorem transferReady_transfer (src : Word) (len : BitVec 7) (h : src.toNat % 16 = 0) :
    transferReady (transfer src len .ffIgnore) :=
  ⟨rfl, rfl, ⟨h, by show (0x1FF0#13).toNat % 16 = 0; decide⟩, fun _ _ => readWith_ok false rfl _⟩

/-- Sources in the last block of ROM, in video RAM over the destination itself, in echo RAM, at the end of the address
space; and one whose first byte is not there. -/
theorem witness_HdmaBlockCopies :
    (transferReady (transfer 0x7FF0 1 .ffIgnore) ∧ transferReady (transfer 0x9FF0 1 .ffIgnore) ∧
      transferReady (transfer 0xFDF0 1 .ffIgnore) ∧ transferReady (transfer 0xFFF0 1 .ffIgnore)) ∧
      (1 : BitVec 7) ≠ 0 ∧ transferReady (transfer 0x7FF0 0 .ffIgnore) ∧
      TransferInv (transfer 0xFEA0 0 .fault) ∧
      readWith false (transfer 0xFEA0 0 .fault) 0xFEA0 = .error (.busGap 0xFEA0) :=
  have ready (src : Word) (len : BitVec 7) := transferReady_transfer src len
  ⟨⟨ready _ 1 (by decide), ready _ 1 (by decide), ready _ 1 (by decide), ready _ 1 (by decide)⟩, by decide,
    ready _ 0 (by decide), ⟨by show (0xFEA0#16).toNat % 16 = 0; decide, by show (0x1FF0#13).toNat % 16 = 0; decide⟩,
    by decide⟩

theorem witness_TimerCounts :
    let s := { m z with timer := { (m z).timer with tac := 5, tima := 0xFE, tma := 0x80, ticks := 12 } }
    (m z).timer.tac.getLsbD 2 = false ∧ s.timer.tac.getLsbD 2 = true ∧
      s.timer.tima.toNat + (s.timer.ticks + 4) / tacPeriod s.timer.tac ≤ 255 ∧
      (255 < s.timer.tima.toNat + (s.timer.ticks + 20) / tacPeriod s.timer.tac ∧
        s.timer.tima.toNat + (s.timer.ticks + 20) / tacPeriod s.timer.tac - 256 + s.timer.tma.toNat ≤ 255) := by decide

theorem witness_SerialTransfer :
    (0x81#8).getLsbD 7 = true ∧ (0x81#8).getLsbD 0 = true ∧ 4095 < (writeSc 0x81 (m z)).serial.timer := by decide

/-- A line of the joypad falls from one state to another (R380). -/
def fallsTo (s t : State) : Prop :=
  ∃ k, k < 4 ∧ (readIo .p1 s).getLsbD k = true ∧ (readIo .p1 t).getLsbD k = false

/-- The directions selected, Left held: pressing Right pulls a line low, pressing A and pressing Left do not; selecting
the actions with A held pulls one low, selecting nothing does not. -/
theorem witness_JoypadLines :
    let s := { m z with joypad := { p15 := true, p14 := false, buttons := 0x12 } }
    fallsTo s (buttonDown .right s) ∧ ¬ fallsTo s (buttonDown .b s) ∧
      s.joypad.buttons &&& Button.left.mask ≠ 0 ∧ s.joypad.buttons &&& Button.up.mask = 0 ∧
      fallsTo s (writeP1 0x00 s) ∧ ¬ fallsTo s (writeP1 0x30 s) := by
  unfold fallsTo
  decide

/-- Clock register `n` selected on an `MBC3` with a clock. -/
def clock (n : BitVec 4) : State :=
  { m z with cart := { Cart.blank with kind := .mbc3, hasRtc := true },
             mbc := { Mbc.launch with ramEnabled := true, ramSelect := n } }

theorem witness_ClockRules :
    ((clock 8).rtc.lastWall ≤ 5 ∧ (clock 8).rtc.live.halt = false ∧
      { (clock 8).rtc with live := { (clock 8).rtc.live with halt := true } }.live.halt = true) ∧
    (({ sec := 59, min := 59, hour := 23, day := 511, halt := false, carry := false } : RtcRegs).inRange ∧
      0xA000 ≤ (0xBFFF#16).toNat ∧ (0xBFFF#16).toNat < 0xC000 ∧ 0x6000 ≤ (0x7FFF#16).toNat ∧ (0x7FFF#16).toNat < 0x8000) ∧
    (∀ n, (clock n).cart.kind = .mbc3 ∧ (clock n).cart.hasRtc = true ∧ (clock n).mbc.ramEnabled = true ∧
      (clock n).mbc.ramSelect = n) ∧
    (window (clock 0x8) 0 = .seconds ∧ window (clock 0x9) 0 = .minutes ∧ window (clock 0xA) 0 = .hours ∧
      window (clock 0xB) 0 = .dayLow ∧ window (clock 0xC) 0x1FFF = .dayHigh) ∧
    ((59#8).toNat < 60 ∧ 60 ≤ (60#8).toNat ∧ (23#8).toNat < 24 ∧ 24 ≤ (24#8).toNat) ∧
    ({ (clock 8).rtc with latchPrev := 0x00 } : Rtc).latchPrev = 0x00 ∧
      ¬ ((clock 8).rtc.latchPrev = 0x00 ∧ (0x01#8) = 0x01#8) :=
  ⟨by decide, ⟨⟨by decide, by decide, by decide⟩, by decide, by decide, by decide, by decide⟩, fun _ => ⟨rfl, rfl, rfl, rfl⟩,
    ⟨rfl, rfl, rfl, rfl, rfl⟩, by decide, rfl, by decide⟩

theorem witness_SoundRules :
    (m z).apu.power = true ∧ (m z).apu.sweep.shift = 0 ∧ (0x87#8).getLsbD 7 = true := by decide

end Sys2Proof.Tests
end

section
/-! SUPPORT. The opcode fetch (spec/10_state.md R30, spec/60_exceptions.md R341 item 4), case by case. -/

namespace Sys2Proof.Machine

theorem fetchOpcode_error {s : State} {e : Fault} (h : readByte s s.cpu.pc = .error e) : fetchOpcode s = .error e := by
  unfold fetchOpcode fetch8
  rw [h]
  split <;> rfl

theorem fetchOpcode_repeat {s : State} {op : Byte} (h : readByte s s.cpu.pc = .ok op) (hr : s.cpu.haltRepeat = true) :
    fetchOpcode s = .ok (op, { s with cpu := { s.cpu with haltRepeat := false } }) := by
  unfold fetchOpcode
  rw [if_pos hr, h, bind_ok]

theorem fetchOpcode_advance {s : State} {op : Byte} (h : readByte s s.cpu.pc = .ok op) (hr : s.cpu.haltRepeat = false) :
    fetchOpcode s = .ok (op, setPc (s.cpu.pc + 1) s) := by
  unfold fetchOpcode
  rw [if_neg (by rw [hr]; decide), fetch8_ok h]

/-- An unreadable opcode byte ends the step in the fault of that read (R344). -/
theorem instructionStep_unreadable {s : State} {e : Fault} (h : readByte s s.cpu.pc = .error e) :
    instructionStep s = .fault e := by
  unfold instructionStep fetchInstr
  rw [fetchOpcode_error h, bind_error]

/-- Settles O9: the fetch case by case. -/
theorem haltRepeatFetch : Obligations.HaltRepeatFetch := by
  refine ⟨fun s e h => instructionStep_unreadable h, fun s op h => ⟨fetchOpcode_repeat h, fun hr => ?_⟩⟩
  exact ⟨_, fetchOpcode_advance h hr, by rw [setPc_cpu_pc]; exact BitVec.toNat_add _ _, rfl⟩

end Sys2Proof.Machine
end

section
/-! SUPPORT. A push onto plain storage (spec/20_memory.md R73, spec/00_scope.md R13) is two stores of a byte. -/

namespace Sys2Proof.Machine

/-- What a bus write to the plain cell `c` does: it stores the byte, or drops it where the picture generator hides the
store (`writeByte_plain`). -/
def storePlain (c : Store × Nat) (v : Byte) (s : State) : State := if hidden s c.1 then s else storeCell c v s

/-- What holds of a state and of the state with a byte stored in it holds after `storePlain`. -/
theorem storePlain_induction {P : State → Prop} {c : Store × Nat} {v : Byte} {s : State} (h : P s)
    (h' : P (storeCell c v s)) : P (storePlain c v s) := by
  unfold storePlain
  split
  · exact h
  · exact h'

@[simp] theorem plainCell_storePlain (c : Store × Nat) (v : Byte) (s : State) (b : Word) :
    plainCell (storePlain c v s) b = plainCell s b :=
  storePlain_induction (P := fun t => plainCell t b = plainCell s b) rfl (plainCell_storeCell c v s b)

@[simp] theorem hidden_storePlain (c : Store × Nat) (v : Byte) (s : State) (x : Store) :
    hidden (storePlain c v s) x = hidden s x :=
  storePlain_induction (P := fun t => hidden t x = hidden s x) rfl (hidden_storeCell c v s x)

theorem memoryInv_storePlain {s : State} (c : Store × Nat) (v : Byte) (h : MemoryInv s) :
    MemoryInv (storePlain c v s) := storePlain_induction h (memoryInv_storeCell c v h)

theorem onlyStores_storePlain (c : Store × Nat) (v : Byte) (s : State) : OnlyStores s (storePlain c v s) := by
  refine storePlain_induction (P := OnlyStores s) rfl ?_
  obtain ⟨x, o⟩ := c
  cases x <;> rfl

theorem OnlyStores.trans {s t u : State} (h : OnlyStores s t) (h' : OnlyStores t u) : OnlyStores s u := by
  unfold OnlyStores at *
  rw [h', h]

@[simp] theorem hidden_setSp (w : Word) (s : State) (x : Store) : hidden (setSp w s) x = hidden s x := by
  cases x <;> rfl

/-- A store and a change of `SP` do not touch each other. -/
theorem storePlain_setSp (c : Store × Nat) (v : Byte) (w : Word) (s : State) :
    storePlain c v (setSp w s) = setSp w (storePlain c v s) := by
  obtain ⟨x, o⟩ := c
  unfold storePlain
  rw [hidden_setSp]
  cases hidden s x <;> cases x <;> rfl

theorem writeByte_storePlain {s : State} {a : Word} {c : Store × Nat} (v : Byte) (h : plainCell s a = some c) :
    writeByte s a v = .ok (storePlain c v s) := writeByte_plain v h

theorem readByte_storePlain {s : State} {a : Word} {c : Store × Nat} (v : Byte) (hm : MemoryInv s)
    (h : plainCell s a = some c) (b : Word) :
    readByte (storePlain c v s) b = afterStore s c v b (readByte s b) := readByte_written v hm h b

/-- What every address reads after two stores to plain storage. -/
theorem readByte_storePlain_twice {s : State} {a1 a2 : Word} {c1 c2 : Store × Nat} (v1 v2 : Byte) (hm : MemoryInv s)
    (h1 : plainCell s a1 = some c1) (h2 : plainCell s a2 = some c2) (b : Word) :
    readByte (storePlain c2 v2 (storePlain c1 v1 s)) b =
      afterStore s c2 v2 b (afterStore s c1 v1 b (readByte s b)) := by
  rw [readByte_storePlain v2 (memoryInv_storePlain c1 v1 hm) ((plainCell_storePlain c1 v1 s a2).trans h2),
    readByte_storePlain v1 hm h1]
  simp only [afterStore, plainCell_storePlain, hidden_storePlain]

/-- A push onto plain storage: the high byte in the cell behind `SP - 1`, then the low byte in the one behind
`SP - 2` (R13). -/
theorem push16_plain {s : State} {c1 c2 : Store × Nat} (v : Word) (h1 : plainCell s (s.cpu.sp - 1) = some c1)
    (h2 : plainCell s (s.cpu.sp - 2) = some c2) :
    push16 v s = .ok (setSp (s.cpu.sp - 2) (storePlain c2 (loByte v) (storePlain c1 (hiByte v) s))) := by
  have hsp : s.cpu.sp - 1 - 1 = s.cpu.sp - 2 := by bv_omega
  have w1 := writeByte_storePlain (s := setSp (s.cpu.sp - 1) s) (hiByte v) h1
  have w2 := writeByte_storePlain (s := setSp (s.cpu.sp - 2) (storePlain c1 (hiByte v) s)) (loByte v)
    ((plainCell_storePlain c1 _ s _).trans h2)
  rw [storePlain_setSp] at w1 w2
  unfold push16
  rw [w1, bind_ok, setSp_cpu_sp, hsp]
  exact w2

/-- `F` as a byte, flag by flag (R21). -/
theorem pack_eq (f : Flags) :
    f.pack = BitVec.ofBool f.z ++ BitVec.ofBool f.n ++ BitVec.ofBool f.h ++ BitVec.ofBool f.c ++ 0#4 := by
  obtain ⟨z, n, h, c⟩ := f
  revert z n h c
  decide

/-- A push form pushes the word the statements give it. -/
theorem runForm_push {f : Form} {v : Word} {s : State} (h : PushForm f v s) : runForm f s = push16 v s := by
  obtain ⟨rfl, rfl⟩ | ⟨rfl, rfl⟩ | ⟨rfl, rfl⟩ | ⟨rfl, hhi, hlo⟩ := h
  · rfl
  · rfl
  · rfl
  · have hv : v = af s := by
      rw [← word_hi_lo v, hhi, hlo, af, pack_eq]; rfl
    rw [hv]; rfl

/-- A call that is taken runs `call`. -/
theorem runForm_call {f : Form} {target : Word} {s : State} (h : CallForm f target s) :
    runForm f s = call target s := by
  obtain rfl | ⟨cc, rfl, hc⟩ | ⟨t, rfl, rfl⟩ := h
  · rfl
  · show onCondition cc (call target) s = _
    unfold onCondition
    rw [if_pos ((condition_eq cc s).trans hc)]
  · rfl

/-- A push and a taken call differ only in the program counter they leave. -/
theorem runForm_stack {f : Form} {v pc' : Word} {s t : State}
    (hf : PushForm f v s ∧ pc' = s.cpu.pc ∨ CallForm f pc' s ∧ v = s.cpu.pc) (h : push16 v s = .ok t)
    (hpc : t.cpu.pc = s.cpu.pc) : runForm f s = .ok (setPc pc' t) := by
  obtain ⟨hp, rfl⟩ | ⟨hc, rfl⟩ := hf
  · rw [runForm_push hp, h, ← hpc]; rfl
  · rw [runForm_call hc, call, h, bind_ok]

/-- Settles O22: a push onto plain storage is two plain stores, which leave the processor alone. -/
theorem stackStores : Obligations.StackStores := by
  intro f v pc' s c1 c2 hf hm h1 h2
  have hstores : OnlyStores s (storePlain c2 (loByte v) (storePlain c1 (hiByte v) s)) :=
    (onlyStores_storePlain c1 _ s).trans (onlyStores_storePlain c2 _ _)
  have hcpu : (storePlain c2 (loByte v) (storePlain c1 (hiByte v) s)).cpu = s.cpu := by rw [hstores]
  have hrun := runForm_stack hf (push16_plain v h1 h2) (by rw [setSp_cpu_pc, hcpu])
  refine ⟨_, exec_next hrun, ?_, ?_, fun b => ?_⟩
  · simp only [setPc, setSp, hcpu]
  · unfold OnlyStores at hstores ⊢
    rw [hstores]; rfl
  · rw [readByte_setPc, readByte_setSp]
    exact readByte_storePlain_twice _ _ hm h1 h2 b

end Sys2Proof.Machine
end

section
/-! SUPPORT. Which forms fail, and what no instruction changes (spec/00_scope.md R18, spec/60_exceptions.md R362). -/

namespace Sys2Proof.Machine

/-- Every instruction is the row of its form. -/
theorem toInstr_form (i : Instr) : i.form.toInstr = i := by cases i <;> rfl

/-- An instruction of an illegal form is one of the eleven illegal rows. -/
theorem selectsInstruction_of_illegal {i : Instr} {b : IllegalByte} (h : i.form = .illegal b) :
    i.selectsInstruction = false := by
  rw [← toInstr_form i, h]
  cases b <;> rfl

/-- An instruction of the form `STOP` is the row `STOP` with its second byte. -/
theorem eq_stop_of_form {i : Instr} {x : Byte} (h : i.form = .stop x) : i = .stop x := by
  rw [← toInstr_form i, h]
  rfl

/-- Under `ff_ignore` only the illegal rows and a reserved `STOP` fail (R95, R322, R326). -/
theorem exec_completes {i : Instr} {s : State} (hu : s.params.unmapped = .ffIgnore) (hs : i.selectsInstruction = true)
    (ho : i.stopOperandDefined = true) : ∃ t, exec i s = .next t := by
  cases hr : runForm i.form s with
  | ok t => exact ⟨t, by rw [exec_eq_run, hr, ofExcept_ok]⟩
  | error e =>
    obtain ⟨b, hf, -⟩ | ⟨x, hf, hx, -⟩ | ⟨a, -, -, hp⟩ := runForm_error hr
    · rw [selectsInstruction_of_illegal hf] at hs
      cases hs
    · rw [eq_stop_of_form hf] at ho
      exact absurd (eq_of_beq ho) hx
    · rw [hu] at hp
      cases hp

/-- The cartridge image, the parameters, the clock count and the fault are as before. -/
structure HostPartKept (s t : State) : Prop where
  cart : t.cart = s.cart
  params : t.params = s.params
  clock : t.clock = s.clock
  fault : t.fault = s.fault

/-- No change that an instruction makes touches them. -/
theorem hostPartKept_keptByExec (s : State) : KeptByExec (HostPartKept s) where
  cpu _ _ h := ⟨h.cart, h.params, h.clock, h.fault⟩
  write _ _ _ _ hw h :=
    ⟨(writeByte_cart hw).trans h.cart, (writeByte_params hw).trans h.params, (writeByte_clock hw).trans h.clock,
      (writeByte_fault hw).trans h.fault⟩
  speed _ h _ := ⟨h.cart, h.params, h.clock, h.fault⟩

/-- Settles O43: no defined instruction fails under `ff_ignore`, and none touches what the host owns. -/
theorem everyInstructionCompletes : Obligations.EveryInstructionCompletes := by
  intro i s hu hs ho
  obtain ⟨t, ht⟩ := exec_completes hu hs ho
  obtain ⟨hcart, hparams, hclock, hfault⟩ :=
    kept_exec (hostPartKept_keptByExec s) ht ⟨rfl, rfl, rfl, rfl⟩
  exact ⟨t, ht, hcart, hparams, hclock, hfault⟩

end Sys2Proof.Machine
end

section
/-! SUPPORT. The picture generator's cycles with the display on and off (spec/61_ppu.md R401, R402, R412, R413). -/

namespace Sys2Proof.Machine

theorem ppuAdvance_on {s : State} (h : lcdcBit s 7 = true) (m : Nat) : ppuAdvance m s = ppuCycles m s := if_pos h

theorem ppuAdvance_off {s : State} (h : lcdcBit s 7 = false) (m : Nat) : ppuAdvance m s = .ok s :=
  if_neg (by rw [h]; decide)

/-- The scanline invariant with the display on. -/
theorem PpuInv.onLine {s : State} (hi : PpuInv s) (h : lcdcBit s 7 = true) :
    OnLineInv s.params.ly153ZeroAt s.ppu := by
  obtain ⟨-, -, hp⟩ := hi
  rw [if_pos h] at hp
  obtain ⟨hline, hcycle, hmode, hly⟩ := hp
  exact ⟨hline, hcycle, hmode, hly⟩

/-- Settles O51, by the induction over cycles of `ppuCycles_line`. -/
theorem frameIsConstant : Obligations.FrameIsConstant := by
  intro s m hi
  refine ⟨fun hon t ht => ?_, ppuAdvance_total m, fun hoff => ppuAdvance_off hoff m⟩
  rw [ppuAdvance_on hon] at ht
  have hstart := hi.onLine hon
  obtain ⟨hz1, hz2, -⟩ := hi
  obtain ⟨hline, -, hpos⟩ := ppuCycles_line hz1 hz2 hstart ht
  exact ⟨hline.line, hline.cycle, hpos⟩

end Sys2Proof.Machine
end

section
/-! SUPPORT. Decoding what was encoded, and the ends of a step (spec/30_encoding.md R137, spec/60_exceptions.md R341). -/

namespace Sys2Proof.Machine

/-- The decoder reads an instruction's own bytes as that instruction, whatever follows: by evaluation for each row, where a
16-bit operand comes back from its two bytes. -/
theorem decode_encode {i : Instr} (h : i.notPrefixRow = true) (rest : List Byte) :
    decode (encode i ++ rest) = .ok (i, rest) := by
  cases i
  case prefixCb => cases h
  case ldBcD16 a | ldDeD16 a | ldHlD16 a | ldSpD16 a | ldAtA16Sp a | ldAtA16A a | ldAAtA16 a | jpA16 a | jpNzA16 a |
      jpZA16 a | jpNcA16 a | jpCA16 a | callA16 a | callNzA16 a | callZA16 a | callNcA16 a | callCA16 a =>
    conv_rhs => rw [← word_hi_lo a]
    rfl
  all_goals rfl

theorem thenTick_ok {n : Nat} {u v : State} (h : tick n u = .ok v) :
    thenTick n (.next u) = .next { v with clock := v.clock + n } := by
  show Result.ofExcept (finishStep n u) = _
  rw [finishStep, h]
  rfl

theorem thenTick_error {n : Nat} {u : State} {e : Fault} (h : tick n u = .error e) :
    thenTick n (.next u) = .fault e := by
  show Result.ofExcept (finishStep n u) = _
  rw [finishStep, h]
  rfl

theorem step_faulted {s : State} {e : Fault} (h : s.fault = some e) : step s = .fault e := by
  unfold step stepBody
  rw [h]

theorem step_stopped {s : State} (hf : s.fault = none) (hr : s.cpu.runState = .stopped) : step s = .next s := by
  unfold step stepBody
  rw [hf]
  exact if_pos hr

/-- A halted machine with nothing due and nothing pending idles for 4 cycles (R350). -/
theorem awake_idle {s : State} (hd : dueInterrupt s = none) (hi : idling s = true) :
    awakeStep s = thenTick 4 (.next s) := by
  unfold awakeStep
  rw [hd]
  exact if_pos hi

theorem dueInterrupt_disabled {s : State} (h : s.cpu.ime = false) : dueInterrupt s = none :=
  if_neg (by rw [h]; decide)

theorem dueInterrupt_nothingPending {s : State} (h : pending s = 0) : dueInterrupt s = none := by
  unfold dueInterrupt
  rw [h]
  exact ite_self _

theorem idling_iff {s : State} : idling s = true ↔ s.cpu.runState = .halted ∧ pending s = 0 := by
  simp [idling]

theorem idling_pending {s : State} (h : pending s ≠ 0) : idling s = false :=
  Bool.eq_false_iff.mpr fun hi => h (idling_iff.mp hi).2

theorem idling_running {s : State} (h : s.cpu.runState = .running) : idling s = false :=
  Bool.eq_false_iff.mpr fun hi => by
    obtain ⟨hr, -⟩ := idling_iff.mp hi
    rw [h] at hr
    cases hr

/-- With `IME` clear, a machine that is not idling runs one instruction, whether it was halted or not (R350). -/
theorem step_disabled {s : State} (hf : s.fault = none) (hr : s.cpu.runState ≠ .stopped)
    (hi : idling (updateIme s) = false) (hime : (updateIme s).cpu.ime = false) :
    step s = instructionStep (wake (updateIme s)) := by
  rw [step_awake hf hr, awake_instruction (dueInterrupt_disabled hime) hi]

/-- Settles O8: each clause is one way through the step. -/
theorem stepStoppedOrHalted : Obligations.StepStoppedOrHalted := by
  intro s
  refine ⟨fun f hf => step_faulted hf, step_stopped, fun hf hr => ⟨fun hp => ?_, fun hp hime => ?_⟩⟩
  · have hstep : step s = thenTick 4 (.next (updateIme s)) := by
      rw [step_awake hf (by rw [hr]; decide),
        awake_idle (s := updateIme s) (dueInterrupt_nothingPending hp) (idling_iff.mpr ⟨hr, hp⟩)]
    rw [hstep]
    exact ⟨fun t => thenTick_ok, fun f => thenTick_error⟩
  · rw [step_disabled hf (by rw [hr]; decide) (idling_pending hp) hime]
    exact (step_disabled (s := { s with cpu := { s.cpu with runState := .running } })
      hf nofun (idling_running rfl) hime).symm

/-- Settles O5: the fetch of the instruction's own bytes (`fetchInstr_ok`), its meaning, then `Tick`. -/
theorem stepRunsInstruction : Obligations.StepRunsInstruction := by
  intro s i hf hr hd hi hp w first hb u
  have hfirst : first = w.cpu.haltRepeat.toNat := by
    show (if s.cpu.haltRepeat = true then 1 else 0) = s.cpu.haltRepeat.toNat
    cases s.cpu.haltRepeat <;> rfl
  have hdec : decode (encode i) = .ok (i, []) := by
    rw [← List.append_nil (encode i)]
    exact decode_encode hp []
  have hfetch : fetchInstr w = .ok (i, u) := by
    have hok := fetchInstr_ok (s := w) hdec (by rw [← hfirst]; exact hb)
    rw [← hfirst] at hok
    exact hok
  have hstep : step s = thenTick (cost i u) (exec i u) := by
    rw [step_awake hf hr, awake_instruction hd hi, instructionStep, hfetch]
  rw [hstep]
  refine ⟨fun t t' he ht => ?_, fun f he => ?_, fun t f he ht => ?_⟩
  · rw [he, thenTick_ok ht]
  · rw [he]; rfl
  · rw [he, thenTick_error ht]

end Sys2Proof.Machine
end

section
/-! SUPPORT. Which instruction changes which part of the processor's control state (spec/10_state.md R27 to R31,
spec/45_control_flow.md R309, spec/46_system.md R321 to R324). -/

namespace Sys2Proof.Machine

theorem SameControl.refl (p : Cpu) : SameControl p p := ⟨rfl, rfl, rfl, rfl, rfl⟩

theorem SameControl.trans {p q r : Cpu} (h : SameControl p q) (h' : SameControl q r) : SameControl p r :=
  ⟨h'.ime.trans h.ime, h'.pending.trans h.pending, h'.run.trans h.run, h'.halt.trans h.halt, h'.speed.trans h.speed⟩

theorem sameControl_keptByPlain (p : Cpu) : KeptByPlain (fun u => SameControl p u.cpu) where
  regs _ _ hc h := h.trans hc
  write _ _ _ _ hw h := by rw [writeByte_cpu hw]; exact h

/-- What an instruction of a form can do to the control state: nothing, or what one of the five controlling forms is
for. -/
inductive ControlChange (s t : State) : Form → Prop where
  | nothing {f : Form} (h : SameControl s.cpu t.cpu) : ControlChange s t f
  | enable {f : Form} (hf : f = .di ∨ f = .ei ∨ f = .reti) (run : t.cpu.runState = s.cpu.runState)
      (halt : t.cpu.haltRepeat = s.cpu.haltRepeat) (speed : t.cpu.speedShift = s.cpu.speedShift)
      (inv : EnableInv t) : ControlChange s t f
  | halt (ime : t.cpu.ime = s.cpu.ime) (pending : t.cpu.imePending = s.cpu.imePending)
      (speed : t.cpu.speedShift = s.cpu.speedShift) : ControlChange s t .halt
  | stop {second : Byte} (ime : t.cpu.ime = s.cpu.ime) (pending : t.cpu.imePending = s.cpu.imePending)
      (halt : t.cpu.haltRepeat = s.cpu.haltRepeat)
      (speed : t.cpu.speedShift = s.cpu.speedShift ∨ s.cart.colorMode = true) : ControlChange s t (.stop second)

/-- A delayed enable, after changes that left the control state alone, starts the counter or does nothing (R324). -/
theorem controlChange_enableLater {s u : State} {f : Form} (hf : f = .di ∨ f = .ei ∨ f = .reti)
    (h : SameControl s.cpu u.cpu) : ControlChange s (enableLater u) f := by
  unfold enableLater
  split
  · rename_i hc
    exact .enable hf h.run h.halt h.speed fun _ => hc.2
  · exact .nothing h

theorem runForm_control {f : Form} {s t : State} (h : runForm f s = .ok t) : ControlChange s t f := by
  cases hf : isControl f with
  | false => exact .nothing (kept_plainForm (sameControl_keptByPlain s.cpu) hf h (.refl _))
  | true =>
    cases f <;> simp [isControl] at hf
    case di => cases h; exact .enable (.inl rfl) rfl rfl rfl fun hp => absurd rfl hp
    case ei => cases h; exact controlChange_enableLater (.inr (.inl rfl)) (.refl _)
    case reti =>
      obtain ⟨⟨v, u⟩, hpop, h⟩ := bind_eq_ok.mp h
      cases h
      have hu : SameControl s.cpu u.cpu := kept_pop16 (sameControl_keptByPlain s.cpu) hpop (.refl _)
      split
      · exact controlChange_enableLater (.inr (.inr rfl)) ⟨hu.ime, hu.pending, hu.run, hu.halt, hu.speed⟩
      · exact .enable (.inr (.inr rfl)) hu.run hu.halt hu.speed fun hp => absurd rfl hp
    case halt =>
      cases h
      split
      · exact .halt rfl rfl rfl
      · split <;> exact .halt rfl rfl rfl
    case stop second =>
      simp only [runForm, stop] at h
      split at h
      · cases h
      · split at h
        · rename_i hc
          rw [Bool.and_eq_true] at hc
          cases h
          exact .stop rfl rfl rfl (.inr hc.1)
        · cases h
          exact .stop rfl rfl rfl (.inl rfl)

theorem exec_control {i : Instr} {s t : State} (h : exec i s = .next t) : ControlChange s t i.form := by
  rw [exec_eq_run, ofExcept_next] at h
  exact runForm_control h

/-- The instruction of a form is the form's row. -/
theorem eq_toInstr_of_form {i : Instr} {f : Form} (h : i.form = f) : i = f.toInstr := h ▸ (toInstr_form i).symm

/-- Settles O44: the cases of `ControlChange`, with the form read back as the instruction. -/
theorem controlStateWriters : Obligations.ControlStateWriters := by
  intro i s t h
  have hc := exec_control h
  generalize hf : i.form = f at hc
  have hi := eq_toInstr_of_form hf
  cases hc with
  | nothing h => exact ⟨fun _ _ _ => ⟨h.ime, h.pending⟩, fun _ _ => h.run, fun _ => h.speed, fun _ => h.halt⟩
  | enable hform run halt speed inv =>
    refine ⟨fun hdi hei hreti => ?_, fun _ _ => run, fun _ => speed, fun _ => halt⟩
    obtain rfl | rfl | rfl := hform
    · exact absurd hi hdi
    · exact absurd hi hei
    · exact absurd hi hreti
  | halt ime pending speed =>
    exact ⟨fun _ _ _ => ⟨ime, pending⟩, fun hh _ => absurd hi hh, fun _ => speed, fun hh => absurd hi hh⟩
  | @stop second ime pending halt speed =>
    exact ⟨fun _ _ _ => ⟨ime, pending⟩, fun _ hs => absurd hi (hs second), fun hs => absurd hi (hs second), fun _ => halt⟩

end Sys2Proof.Machine
end

section
/-! SUPPORT. The two inductions over a step from which the ranges of Safety.lean follow: for the processor's control
state and for what lies beyond the processor (spec/60_exceptions.md R341). -/

namespace Sys2Proof.Machine

section
variable {P : State → Prop}
  (hP : ∀ (s : State) (pc : Word) (r : Bool), P s → P { s with cpu := { s.cpu with pc := pc, haltRepeat := r } })
include hP

theorem kept_fetch8 {b : Byte} {s t : State} (h : fetch8 s = .ok (b, t)) (hp : P s) : P t := by
  rw [fetch8_state h]
  exact hP s _ s.cpu.haltRepeat hp

theorem kept_fetchOpcode {b : Byte} {s t : State} (h : fetchOpcode s = .ok (b, t)) (hp : P s) : P t := by
  unfold fetchOpcode at h
  split at h
  · obtain ⟨b, -, h⟩ := bind_eq_ok.mp h
    cases h
    exact hP s s.cpu.pc false hp
  · exact kept_fetch8 hP h hp

theorem kept_fetchOperands {n : Nat} {bs : List Byte} {s t : State} (h : fetchOperands n s = .ok (bs, t)) (hp : P s) :
    P t := by
  induction n generalizing s bs with
  | zero => cases h; exact hp
  | succ n ih =>
    obtain ⟨⟨b, s1⟩, h1, h⟩ := bind_eq_ok.mp h
    obtain ⟨⟨bs', s2⟩, h2, h⟩ := bind_eq_ok.mp h
    cases h
    exact ih h2 (kept_fetch8 hP h1 hp)

/-- A fetch moves the program counter and clears the repeat bit: what these keep, it keeps. -/
theorem kept_fetchInstr {i : Instr} {s t : State} (h : fetchInstr s = .ok (i, t)) (hp : P s) : P t := by
  obtain ⟨⟨op, s1⟩, h1, h⟩ := bind_eq_ok.mp h
  obtain ⟨⟨bs, s2⟩, h2, h⟩ := bind_eq_ok.mp h
  cases h
  exact kept_fetchOperands hP h2 (kept_fetchOpcode hP h1 hp)

end

/-- A property of the cartridge, the enable, its counter and the speed is kept by every step if `updateIme`, the taking of
an interrupt and the instructions keep it. -/
theorem kept_step_control {P : State → Prop}
    (same : ∀ s t : State, t.cart = s.cart → t.cpu.ime = s.cpu.ime → t.cpu.imePending = s.cpu.imePending →
      t.cpu.speedShift = s.cpu.speedShift → P s → P t)
    (hu : ∀ s : State, P s → P (updateIme s))
    (hi : ∀ (n : Source) (s t : State), takeInterrupt n s = .ok t → P s → P t)
    (he : ∀ (i : Instr) (s t : State), exec i s = .next t → P s → P t)
    {s t : State} (h : step s = .next t) (hp : P s) : P t := by
  have hend : ∀ (n m : Nat) (u v : State), tick n u = .ok v → P u → P { v with clock := m } := fun n m u v hv =>
    same u { v with clock := m } (tick_cart hv :) (by rw [tick_cpu hv]) (by rw [tick_cpu hv]) (by rw [tick_cpu hv])
  obtain ⟨-, ⟨-, rfl⟩ | ⟨-, ⟨n, u, v, -, h1, h2, rfl⟩ | ⟨-, -, v, h1, rfl⟩ | ⟨-, -, i, s1, u, v, h1, h2, h3, rfl⟩⟩⟩ :=
    step_cases h
  · exact hp
  · exact hend _ _ _ _ h2 (hi _ _ _ h1 (hu _ hp))
  · exact hend _ _ _ _ h1 (hu _ hp)
  · have hs1 : P s1 := kept_fetchInstr (fun s _ _ => same s _ rfl rfl rfl rfl) h1
      (same (updateIme s) _ rfl rfl rfl rfl (hu _ hp))
    exact hend _ _ _ _ h3 (he _ _ _ h2 hs1)

/-- A property of the state beyond the processor, `IF`, `KEY1` and the clock count is kept by every step if bus writes and
`Tick` keep it. -/
theorem kept_step_device {P : State → Prop}
    (hP : ∀ (s : State) (c : Cpu) (f : BitVec 5) (k : Bool) (n : Nat), P s →
      P { s with cpu := c, ifReg := f, key1Armed := k, clock := n })
    (hw : ∀ (s t : State) (a : Word) (v : Byte), writeByte s a v = .ok t → P s → P t)
    (ht : ∀ (n : Nat) (s t : State), tick n s = .ok t → P s → P t)
    {s t : State} (h : step s = .next t) (hp : P s) : P t :=
  kept_step ⟨fun s c => hP s c s.ifReg s.key1Armed s.clock, hw, fun s hs _ => hP s s.cpu s.ifReg false s.clock hs⟩
    (fun s f => hP s s.cpu f s.key1Armed s.clock) ht (fun s n => hP s s.cpu s.ifReg s.key1Armed n) h hp

end Sys2Proof.Machine
end

section
/-! SUPPORT. The pending enable and the monochrome restrictions along a step (spec/10_state.md R27, R28, R31, R38, R96,
spec/60_exceptions.md R343). -/

namespace Sys2Proof.Machine

theorem enableInv_updateIme {s : State} (h : EnableInv s) : EnableInv (updateIme s) := by
  intro hp
  have h2 : s.cpu.imePending = 2 := by
    by_contra hne
    exact hp (if_neg hne)
  show (s.cpu.ime || s.cpu.imePending == 1) = false
  rw [h (by rw [h2]; decide), h2]
  rfl

/-- Taking an interrupt clears `IME` and keeps the speed (R347). -/
theorem takeInterrupt_control {n : Source} {s t : State} (h : takeInterrupt n s = .ok t) :
    t.cpu.ime = false ∧ t.cpu.speedShift = s.cpu.speedShift := by
  obtain ⟨u, hpush, h⟩ := bind_eq_ok.mp h
  cases h
  have hu := kept_push16 (sameControl_keptByPlain _) hpush (.refl _)
  exact ⟨hu.ime, hu.speed⟩

theorem takeInterrupt_cart {n : Source} {s t : State} (h : takeInterrupt n s = .ok t) : t.cart = s.cart :=
  (kept_takeInterrupt (hostPartKept_keptByExec s) (fun _ _ h => ⟨h.cart, h.params, h.clock, h.fault⟩) h
    ⟨rfl, rfl, rfl, rfl⟩).cart

theorem exec_cart {i : Instr} {s t : State} (h : exec i s = .next t) : t.cart = s.cart :=
  (kept_exec (hostPartKept_keptByExec s) h ⟨rfl, rfl, rfl, rfl⟩).cart

theorem EnableInv.of_same {s t : State} (hi : t.cpu.ime = s.cpu.ime) (hp : t.cpu.imePending = s.cpu.imePending)
    (h : EnableInv s) : EnableInv t := by
  unfold EnableInv
  rw [hi, hp]
  exact h

theorem ControlChange.enableInv {f : Form} {s t : State} (hc : ControlChange s t f) (hi : EnableInv s) :
    EnableInv t := by
  cases hc with
  | nothing h => exact hi.of_same h.ime h.pending
  | enable _ _ _ _ inv => exact inv
  | halt ime pending _ => exact hi.of_same ime pending
  | stop ime pending _ _ => exact hi.of_same ime pending

theorem enableInv_step {s t : State} (h : step s = .next t) : EnableInv s → EnableInv t :=
  kept_step_control (P := EnableInv) (fun _ _ _ hi hp _ hs => hs.of_same hi hp) (fun _ => enableInv_updateIme)
    (fun _ _ _ ht _ _ => (takeInterrupt_control ht).1) (fun _ _ _ he => (exec_control he).enableInv) h

/-- In monochrome mode the processor runs at single speed (R31). -/
def SingleSpeed (s : State) : Prop := s.cart.colorMode = false → s.cpu.speedShift = false

theorem SingleSpeed.of_same {s t : State} (hc : t.cart = s.cart) (hs : t.cpu.speedShift = s.cpu.speedShift)
    (h : SingleSpeed s) : SingleSpeed t := by
  unfold SingleSpeed
  rw [hc, hs]
  exact h

/-- The speed changes in color mode only (R31, R322). -/
theorem ControlChange.speedShift {f : Form} {s t : State} (hc : ControlChange s t f) :
    t.cpu.speedShift = s.cpu.speedShift ∨ s.cart.colorMode = true := by
  cases hc with
  | nothing h => exact .inl h.speed
  | enable _ _ _ speed _ => exact .inl speed
  | halt _ _ speed => exact .inl speed
  | stop _ _ _ speed => exact speed

theorem singleSpeed_exec {i : Instr} {s t : State} (h : exec i s = .next t) (hi : SingleSpeed s) : SingleSpeed t := by
  obtain hs | hc := (exec_control h).speedShift
  · exact hi.of_same (exec_cart h) hs
  · intro hm
    rw [exec_cart h, hc] at hm
    cases hm

theorem singleSpeed_step {s t : State} (h : step s = .next t) : SingleSpeed s → SingleSpeed t :=
  kept_step_control (P := SingleSpeed) (fun _ _ hc _ _ hs hp => hp.of_same hc hs) (fun _ hp => hp.of_same rfl rfl)
    (fun _ _ _ ht hp => hp.of_same (takeInterrupt_cart ht) (takeInterrupt_control ht).2)
    (fun _ _ _ => singleSpeed_exec) h

theorem monoBeyond_step {s t : State} (h : step s = .next t) : MonoBeyond s → MonoBeyond t :=
  kept_step ⟨fun _ _ hp => hp, fun _ _ _ _ => monoBeyond_write, fun _ hp _ hm => ⟨rfl, (hp hm).2⟩⟩ (fun _ _ hp => hp)
    (fun _ _ _ => monoBeyond_tick) (fun _ _ hp => hp) h

theorem monoInv_step {s t : State} (h : step s = .next t) (hi : MonoInv s) : MonoInv t := by
  obtain ⟨hspeed, hbeyond⟩ := (monoInv_iff s).mp hi
  exact (monoInv_iff t).mpr ⟨singleSpeed_step h hspeed, monoBeyond_step h hbeyond⟩

/-- Every step of a machine that is not stopped ends in `Tick`, which leaves the count below the period. -/
theorem timerInv_step {s t : State} (h : step s = .next t) (hi : TimerInv s) : TimerInv t := by
  obtain ⟨-, ⟨-, rfl⟩ | ⟨-, ⟨_, _, v, -, -, hv, rfl⟩ | ⟨-, -, v, hv, rfl⟩ | ⟨-, -, _, _, _, v, -, -, hv, rfl⟩⟩⟩ :=
    step_cases h
  · exact hi
  all_goals exact (timerInv_tick hv :)

/-- Settles O50: each range by one of the two inductions over a step. -/
theorem stepKeepsRanges : Obligations.StepKeepsRanges := by
  intro s t h
  refine ⟨enableInv_step h, monoInv_step h, ?_, ?_, timerInv_step h, ?_, ?_, ?_, ?_⟩
  · exact kept_step_device (fun _ _ _ _ _ hp => hp) (fun _ _ _ _ => screenInv_write) (fun _ _ _ => screenInv_tick) h
  · exact kept_step_device (P := fun u => SoundInv u.apu) (fun _ _ _ _ _ hp => hp) (fun _ _ _ _ => soundInv_bus)
      (fun _ _ _ => soundInv_tick) h
  · exact kept_step_device (fun _ _ _ _ _ hp => hp) (fun _ _ _ _ => serialInv_write) (fun _ _ _ => serialInv_tick) h
  · exact kept_step_device (fun _ _ _ _ _ hp => hp) (fun _ _ _ _ => rtcInv_write) (fun _ _ _ => rtcInv_tick) h
  · exact kept_step_device (fun _ _ _ _ _ hp => hp) (fun _ _ _ _ => mbcInv_write) (fun _ _ _ => mbcInv_tick) h
  · exact kept_step_device (fun _ _ _ _ _ hp => hp) (fun _ _ _ _ => transferInv_write) (fun _ _ _ => transferInv_tick) h

end Sys2Proof.Machine
end

section
/-! SUPPORT. Increments of `TIMA` with at most one overflow (spec/60_exceptions.md R371). -/

namespace Sys2Proof.Machine

theorem timaStep_below {tma : Byte} {t : Byte × Bool} (h : t.1.toNat < 255) :
    (timaStep tma t).1.toNat = t.1.toNat + 1 ∧ (timaStep tma t).2 = t.2 := by
  have hne : t.1 ≠ 0xFF := fun he => by rw [he] at h; exact absurd h (by decide)
  unfold timaStep
  rw [if_neg hne]
  exact ⟨by bv_omega, rfl⟩

theorem timaStep_top {tma : Byte} {t : Byte × Bool} (h : t.1.toNat = 255) : timaStep tma t = (tma, true) :=
  if_pos (BitVec.eq_of_toNat_eq h)

/-- Increments that stay within a byte count. -/
theorem timaSteps_noOverflow {tma : Byte} {k : Nat} {t : Byte × Bool} (h : t.1.toNat + k ≤ 255) :
    (timaSteps tma k t).1.toNat = t.1.toNat + k ∧ (timaSteps tma k t).2 = t.2 := by
  induction k generalizing t with
  | zero => exact ⟨rfl, rfl⟩
  | succ k ih =>
    obtain ⟨hval, hflag⟩ := timaStep_below (tma := tma) (t := t) (by omega)
    obtain ⟨hval', hflag'⟩ := ih (t := timaStep tma t) (by omega)
    exact ⟨by rw [timaSteps, hval']; omega, hflag'.trans hflag⟩

/-- Increments past a byte go on from `TMA`. -/
theorem timaSteps_overflow {tma : Byte} {k : Nat} {t : Byte × Bool} (h : 255 < t.1.toNat + k)
    (h' : t.1.toNat + k - 256 + tma.toNat ≤ 255) :
    (timaSteps tma k t).1.toNat = tma.toNat + (t.1.toNat + k - 256) ∧ (timaSteps tma k t).2 = true := by
  induction k generalizing t with
  | zero => have := t.1.isLt; omega
  | succ k ih =>
    rw [timaSteps]
    by_cases htop : t.1.toNat = 255
    · rw [timaStep_top htop]
      obtain ⟨hval, hflag⟩ := timaSteps_noOverflow (tma := tma) (k := k) (t := (tma, true)) (by simp only; omega)
      exact ⟨by rw [hval]; simp only; omega, hflag⟩
    · obtain ⟨hval, -⟩ := timaStep_below (tma := tma) (t := t) (by have := t.1.isLt; omega)
      have hsum : (timaStep tma t).1.toNat + k = t.1.toNat + (k + 1) := by omega
      rw [← hsum] at h h' ⊢
      exact ih h h'

/-- An enabled timer: whole periods counted, the rest kept, the interrupt requested on an overflow. -/
theorem timerAdvance_on {s : State} (h : s.timer.tac.getLsbD 2 = true) (n : Nat) :
    let k := (s.timer.ticks + n) / tacPeriod s.timer.tac
    let r := timaSteps s.timer.tma k (s.timer.tima, false)
    (timerAdvance n s).timer.ticks = (s.timer.ticks + n) % tacPeriod s.timer.tac ∧
      (timerAdvance n s).timer.tima = r.1 ∧
      (timerAdvance n s).ifReg = if r.2 then s.ifReg ||| Source.timer.mask else s.ifReg := by
  intro k r
  have hrun : timerAdvance n s = requestIf r.2 .timer
      { s with timer := { s.timer with ticks := (s.timer.ticks + n) % tacPeriod s.timer.tac, tima := r.1 } } := if_pos h
  rw [hrun, requestIf_timer, requestIf_ifReg]
  exact ⟨rfl, rfl, rfl⟩

/-- Settles O56: the increments of `TIMA` by induction, without and with an overflow. -/
theorem timerCounts : Obligations.TimerCounts := by
  intro s n k
  refine ⟨fun hoff => if_neg (by rw [hoff]; decide), fun hon => ?_, ?_⟩
  · obtain ⟨hticks, htima, hif⟩ := timerAdvance_on hon n
    refine ⟨hticks, fun hle => ?_, fun hgt hle => ?_⟩
    · obtain ⟨hval, hflag⟩ := timaSteps_noOverflow (tma := s.timer.tma) (t := (s.timer.tima, false)) hle
      rw [htima, hif, hflag]
      exact ⟨hval, rfl⟩
    · obtain ⟨hval, hflag⟩ := timaSteps_overflow (tma := s.timer.tma) (t := (s.timer.tima, false)) hgt hle
      rw [htima, hif, hflag]
      exact ⟨hval, rfl⟩
  · show (s.timer.divCounter + BitVec.ofNat 16 n).toNat = _
    rw [BitVec.toNat_add, BitVec.toNat_ofNat]
    omega

end Sys2Proof.Machine
end

section
/-! SUPPORT. The machine right after reset (spec/10_state.md R42, spec/70_reset_and_hazards.md R552). -/

namespace Sys2Proof.Machine

/-- Settles O46: the registers and the I/O reads at reset, evaluated. -/
theorem resetValues : Obligations.ResetValues := by
  unfold Obligations.ResetValues
  and_intros <;> decide

theorem screenInv_reset : ScreenInv State.reset := by
  refine ⟨List.length_replicate, List.length_replicate, fun row hrow => ?_, by decide, by decide⟩
  rw [List.eq_of_mem_replicate hrow]
  exact List.length_replicate

theorem memoryInv_reset : MemoryInv State.reset := by
  unfold MemoryInv
  decide

theorem ppuInv_reset : PpuInv State.reset := by
  unfold PpuInv
  decide

theorem soundInv_reset : SoundInv State.reset.apu := by
  unfold SoundInv
  decide

theorem serialInv_reset : SerialInv State.reset := by
  unfold SerialInv
  decide

theorem rtcInv_reset : RtcInv State.reset := by
  unfold RtcInv RtcRegs.inRange
  decide

/-- Settles O47: each invariant on the values at reset. -/
theorem resetIsSafe : Obligations.ResetIsSafe :=
  ⟨memoryInv_reset, fun _ => rfl, fun _ => ⟨rfl, rfl, rfl, rfl, rfl⟩, ppuInv_reset, screenInv_reset, soundInv_reset,
    fun h => absurd h (by decide), serialInv_reset, rtcInv_reset, trivial, rfl, rfl⟩

end Sys2Proof.Machine
end

section
/-! SUPPORT. The byte stores along a step, and a byte stored to plain storage (spec/10_state.md R42,
spec/20_memory.md R85 to R91, R471). -/

namespace Sys2Proof.Machine

/-- Settles O48: a step changes the stores by bus writes and by `Tick`, and both keep the canonical form. -/
theorem stepKeepsMemory : Obligations.StepKeepsMemory := fun _ _ hm h =>
  kept_step_device (fun _ _ _ _ _ hp => hp) (fun _ _ _ _ => memoryInv_write) (fun _ _ _ => memoryInv_tick) h hm

/-- Settles O17: the bus write is `storePlain`, whose effect on every read is known. -/
theorem plainStoreEffect : Obligations.PlainStoreEffect := fun s _ v c hm h =>
  ⟨storePlain c v s, writeByte_storePlain v h, onlyStores_storePlain c v s, readByte_storePlain v hm h⟩

end Sys2Proof.Machine
end

section
/-! SUPPORT. Which faults an instruction can end in (spec/20_memory.md R95, spec/46_system.md R322, R326,
spec/60_exceptions.md R344, R360). -/

namespace Sys2Proof.Machine

/-- A failing first access is the failure of the whole operation (R344). -/
theorem bind_of_error {α β : Type} {x : Except Fault α} {e : Fault} (h : x = .error e) (f : α → Except Fault β) :
    (x >>= f) = .error e := by
  rw [h, bind_error]

theorem ofExcept_fault {r : Except Fault State} {e : Fault} : Result.ofExcept r = .fault e ↔ r = .error e := by
  cases r <;> simp

theorem exec_not_refused (i : Instr) (s : State) (q : Refusal) : exec i s ≠ .refused q := by
  rw [exec_eq_run]
  cases runForm i.form s <;> nofun

/-- An illegal row is encoded as the byte it is named by (R132). -/
theorem encode_of_illegal {i : Instr} {b : IllegalByte} (h : i.form = .illegal b) : encode i = [illegalByte b] := by
  rw [eq_toInstr_of_form h]
  cases b <;> rfl

/-- The fault of a bus access names an address without a device, under the policy `fault` (R95). -/
theorem BusFault.range {s : State} {e : Fault} (h : BusFault s e) :
    ∃ a, e = .busGap a ∧ s.params.unmapped = .fault ∧
      (0xFEA0 ≤ a.toNat ∧ a.toNat < 0xFF00 ∨
        0xFF00 ≤ a.toNat ∧ a.toNat < 0xFF80 ∧ ioReg s.cart.colorMode (a.toNat - 0xFF00) = none) := by
  obtain ⟨a, he, hd, hp⟩ := h
  exact ⟨a, he, hp, noDevice_range hd⟩

/-- Settles O27: a failing read at `HL` comes first in each of the operations; the other causes are those of
`runForm_error`. -/
theorem faultCauses : Obligations.FaultCauses := by
  refine ⟨fun s e op ro n h => ?_, fun i s => ⟨fun f hf => ?_, exec_not_refused i s⟩⟩
  · have hfault : ∀ (f : Form) (k : Byte → Except Fault State), runForm f s = (readByte s (hl s) >>= k) →
        exec f.toInstr s = .fault e := fun f k hk => exec_fault (hk.trans (bind_of_error h k))
    exact ⟨hfault (.aluAtHl op) _ rfl, hfault (.rotAtHl ro) _ rfl, hfault (.bitAtHl n) _ rfl,
      hfault (.resAtHl n) _ rfl, hfault (.setAtHl n) _ rfl, hfault .incAtHl _ rfl, hfault .decAtHl _ rfl⟩
  · rw [exec_eq_run, ofExcept_fault] at hf
    obtain ⟨b, hform, rfl⟩ | ⟨x, hform, hx, rfl⟩ | hbus := runForm_error hf
    · exact .inl ⟨_, rfl, encode_of_illegal hform, selectsInstruction_of_illegal hform⟩
    · exact .inr (.inl ⟨x, rfl, eq_stop_of_form hform, hx⟩)
    · exact .inr (.inr hbus.range)

end Sys2Proof.Machine
end

section
/-! SUPPORT. The result of a rotate or shift bit by bit (spec/44_rotate_shift_bit.md R270). -/

namespace Sys2Proof.Machine

theorem getLsbD_bitAt (c : Bool) (k : Nat) {i : Nat} (hi : i < 8) :
    (bitAt c k).getLsbD i = (c && decide (i = k)) := by
  cases c with
  | false => simp [bitAt]
  | true =>
    rw [Bool.eq_iff_iff]
    simp [bitAt]
    omega

/-- Each operation moves its bits one place or four: what is left after the bit laws is arithmetic of the places. -/
theorem rotate8_getLsbD (op : RotOp) (v : Byte) (c : Bool) {i : Nat} (hi : i < 8) :
    (rotate8 op v c).1.getLsbD i = rotatedBit op v c i := by
  have hsign : (0x80#8).getLsbD i = decide (i = 7) := getLsbD_bitAt true 7 hi
  cases op <;>
    simp only [rotate8, rotatedBit, bit, BitVec.getLsbD_or, BitVec.getLsbD_and, BitVec.getLsbD_shiftLeft,
      BitVec.getLsbD_ushiftRight, getLsbD_bitAt, hi] <;>
    grind

/-- The byte with these bits is the result. -/
theorem eq_rotate8 {op : RotOp} {v r : Byte} {c : Bool} (h : ∀ i, i < 8 → r.getLsbD i = rotatedBit op v c i) :
    r = (rotate8 op v c).1 :=
  BitVec.eq_of_getLsbD_eq fun i hi => (h i hi).trans (rotate8_getLsbD op v c hi).symm

end Sys2Proof.Machine
end

section
/-! SUPPORT. Operations of several accesses, one of which fails (spec/60_exceptions.md R344). -/

namespace Sys2Proof.Machine

theorem push16_first_error {v : Word} {s : State} {e : Fault}
    (h : writeByte { s with cpu := { s.cpu with sp := s.cpu.sp - 1 } } (s.cpu.sp - 1) (hiByte v) = .error e) :
    push16 v s = .error e := bind_of_error h _

theorem push16_second_error {v : Word} {s s1 : State} {e : Fault}
    (h1 : writeByte { s with cpu := { s.cpu with sp := s.cpu.sp - 1 } } (s.cpu.sp - 1) (hiByte v) = .ok s1)
    (h2 : writeByte { s1 with cpu := { s1.cpu with sp := s.cpu.sp - 2 } } (s.cpu.sp - 2) (loByte v) = .error e) :
    push16 v s = .error e := by
  have hsp : s1.cpu.sp - 1 = s.cpu.sp - 2 := by
    rw [writeByte_cpu h1]
    show s.cpu.sp - 1 - 1 = s.cpu.sp - 2
    bv_omega
  refine bind_eq_error.mpr (.inr ⟨s1, h1, ?_⟩)
  rw [hsp]
  exact h2

theorem pop16_error {s : State} {e : Fault} (h : readByte s s.cpu.sp = .error e ∨
    (∃ lo, readByte s s.cpu.sp = .ok lo) ∧ readByte s (s.cpu.sp + 1) = .error e) : pop16 s = .error e := by
  obtain h | ⟨⟨lo, hlo⟩, hhi⟩ := h
  · exact bind_of_error h _
  · exact bind_eq_error.mpr (.inr ⟨lo, hlo, bind_of_error hhi _⟩)

theorem storeSp_error {addr : Word} {s : State} {e : Fault} (h : writeByte s addr (loByte s.cpu.sp) = .error e ∨
    ∃ s1, writeByte s addr (loByte s.cpu.sp) = .ok s1 ∧ writeByte s1 (addr + 1) (hiByte s.cpu.sp) = .error e) :
    storeSp addr s = .error e := by
  obtain h | ⟨s1, h1, h2⟩ := h
  · exact bind_of_error h _
  · refine bind_eq_error.mpr (.inr ⟨s1, h1, ?_⟩)
    rw [writeByte_cpu h1]
    exact h2

theorem modifyAtHl_write_error {f : Byte → Byte × Flags} {v : Byte} {s : State} {e : Fault}
    (hr : readByte s (hl s) = .ok v) (hw : writeByte s (hl s) (f v).1 = .error e) : modifyAtHl f s = .error e :=
  bind_eq_error.mpr (.inr ⟨v, hr, bind_of_error hw _⟩)

theorem rewriteAtHl_write_error {f : Byte → Byte} {v : Byte} {s : State} {e : Fault}
    (hr : readByte s (hl s) = .ok v) (hw : writeByte s (hl s) (f v) = .error e) : rewriteAtHl f s = .error e :=
  bind_eq_error.mpr (.inr ⟨v, hr, hw⟩)

/-- A push or a taken call whose push fails ends in the fault of the push. -/
theorem exec_stack_fault {f : Form} {v x : Word} {s : State} {e : Fault}
    (hf : PushForm f v s ∧ x = v ∨ CallForm f v s ∧ x = s.cpu.pc) (h : push16 x s = .error e) :
    exec f.toInstr s = .fault e := by
  obtain ⟨hp, rfl⟩ | ⟨hc, rfl⟩ := hf
  · exact exec_fault ((runForm_push hp).trans h)
  · exact exec_fault ((runForm_call hc).trans (bind_of_error h _))

theorem onCondition_holds {cc : Cond} {s : State} (h : condHolds cc s.cpu.zf s.cpu.cf = true)
    (f : State → Except Fault State) : onCondition cc f s = f s := if_pos ((condition_eq cc s).trans h)

/-- Settles O28: each operation with the access that fails. -/
theorem failingAccessesFault : Obligations.FailingAccessesFault := by
  intro s e
  refine ⟨fun f v x hf => ⟨fun h => ?_, fun s1 h1 h2 => ?_⟩, fun h => ?_, fun addr h => ?_, fun v r hr hw => ?_⟩
  · exact exec_stack_fault hf (push16_first_error h)
  · exact exec_stack_fault hf (push16_second_error h1 h2)
  · have hpop := pop16_error h
    have hret : ret s = .error e := bind_of_error hpop _
    exact ⟨exec_fault (f := .pop .bc) (bind_of_error hpop _), exec_fault (f := .pop .de) (bind_of_error hpop _),
      exec_fault (f := .pop .hl) (bind_of_error hpop _), exec_fault (f := .popAf) (bind_of_error hpop _),
      exec_fault (f := .ret) hret, exec_fault (f := .reti) (bind_of_error hpop _),
      fun cc hcc => exec_fault (f := .retIf cc) ((onCondition_holds hcc ret).trans hret)⟩
  · exact exec_fault (f := .ldToAbsSp addr) (storeSp_error h)
  · refine ⟨?_, ?_, fun n op => ⟨?_, ?_, fun hbits => ?_⟩⟩
    · rintro rfl
      exact exec_fault (f := .incAtHl) (modifyAtHl_write_error hr hw)
    · rintro rfl
      exact exec_fault (f := .decAtHl) (modifyAtHl_write_error hr hw)
    · rintro rfl
      exact exec_fault (f := .resAtHl n) (rewriteAtHl_write_error hr hw)
    · rintro rfl
      exact exec_fault (f := .setAtHl n) (rewriteAtHl_write_error hr hw)
    · rw [eq_rotate8 hbits] at hw
      exact exec_fault (f := .rotAtHl op) (modifyAtHl_write_error hr hw)

end Sys2Proof.Machine
end

section
/-! SUPPORT. The two ROM regions and the bank of an `MBC1` (spec/20_memory.md R82 to R84,
spec/62_cartridge_mbc_rtc.md R460, R461, R466). -/

namespace Sys2Proof.Machine

theorem readByte_romFixed {a : Word} (s : State) (h : a.toNat < 0x4000) :
    readByte s a = .ok (s.cart.rom.read a.toNat) := by
  unfold readByte readWith
  rw [region_romFixed h]
  rfl

theorem romBank_lt {s : State} (h : 0 < s.cart.romBanks) : romBank s < s.cart.romBanks := Nat.mod_lt _ h

/-- The current bank is a bank of the image, so the address of R83 needs no reduction. -/
theorem readByte_romBanked {a : Word} {s : State} (h : 0x4000 ≤ a.toNat) (h' : a.toNat < 0x8000)
    (hb : 0 < s.cart.romBanks) :
    readByte s a = .ok (s.cart.rom.read (romBank s * 0x4000 + (a.toNat - 0x4000))) := by
  have hlt : romBank s * 0x4000 + (a.toNat - 0x4000) < s.cart.romBanks * 0x4000 := by
    have := romBank_lt hb
    omega
  unfold readByte readWith
  rw [region_romBanked h h']
  show Except.ok (readRomBanked s _) = _
  rw [readRomBanked, Nat.mod_eq_of_lt hlt]

/-- A store to ROM is a write of the bank controller (R84). -/
theorem writeByte_rom {a : Word} (s : State) (v : Byte) (h : a.toNat < 0x8000) :
    ∃ off, writeByte s a v = .ok (writeController s off v) := by
  unfold writeByte
  obtain hr | hr := region_rom h <;> rw [hr] <;> exact ⟨_, rfl⟩

/-- The remapping of R466 skips the banks whose low five bits are 0. -/
theorem remap_mbc1_mod (i : Nat) : remap .mbc1 i % 32 ≠ 0 := by
  show (if i % 32 = 0 then i + 1 else i) % 32 ≠ 0
  split <;> omega

theorem romBank_mbc1 {s : State} (hk : s.cart.kind = .mbc1) (hb : s.cart.romBanks = 128) :
    romBank s = remap .mbc1 (s.mbc.romIndex .mbc1) % 128 := by
  rw [romBank, hk, hb]

theorem romBank_mbc1_shown {s : State} (hk : s.cart.kind = .mbc1) (hb : s.cart.romBanks = 128) :
    romBank s % 32 ≠ 0 := by
  rw [romBank_mbc1 hk hb, Nat.mod_mod_of_dvd _ (by decide)]
  exact remap_mbc1_mod _

/-- The bank number of R466 in bank mode 0. -/
theorem romBank_mbc1_mode0 {s : State} (hk : s.cart.kind = .mbc1) (hb : s.cart.romBanks = 128)
    (hm : s.mbc.bankMode = false) (hlo : s.mbc.romLo.toNat < 32) :
    romBank s = 32 * s.mbc.hi2.toNat + (if s.mbc.romLo = 0 then 1 else s.mbc.romLo.toNat) := by
  have hidx : s.mbc.romIndex .mbc1 = s.mbc.hi2.toNat * 32 + s.mbc.romLo.toNat := by
    show (if s.mbc.bankMode then _ else s.mbc.hi2.toNat * 32 + s.mbc.romLo.toNat % 32) = _
    rw [hm, Nat.mod_eq_of_lt hlo]
    rfl
  have hhi := s.mbc.hi2.isLt
  have hzero : s.mbc.romLo = 0 ↔ s.mbc.romLo.toNat = 0 := BitVec.toNat_inj.symm
  rw [romBank_mbc1 hk hb, hidx]
  simp only [remap, hzero]
  split <;> split <;> omega

/-- Settles O53: reads by region, and a store below `0x8000` as a controller write. -/
theorem romAndBanks : Obligations.RomAndBanks := by
  intro s a v ha
  refine ⟨readByte_romFixed s, fun h hb => ⟨romBank_lt hb, readByte_romBanked h ha hb⟩, ?_,
    fun hk hb => ⟨romBank_mbc1_shown hk hb, romBank_mbc1_mode0 hk hb⟩⟩
  obtain ⟨off, hw⟩ := writeByte_rom s v ha
  refine ⟨_, hw, writeController_cart s off v, writeController_cpu s off v, fun b hb => ?_⟩
  rw [readByte_romFixed _ hb, readByte_romFixed s hb, writeController_cart]

end Sys2Proof.Machine
end

section
/-! SUPPORT. The OAM DMA (spec/20_memory.md R98). -/

namespace Sys2Proof.Machine

theorem readByte_io {s : State} {a : Word} {n : Nat} {r : IoReg} (ha : region a = .io n)
    (hr : ioReg s.cart.colorMode n = some r) : readByte s a = .ok (readIo r s) := by
  unfold readByte readWith
  rw [ha]
  simp only [hr]

theorem writeByte_io {s : State} {a : Word} {n : Nat} {r : IoReg} (v : Byte) (ha : region a = .io n)
    (hr : ioReg s.cart.colorMode n = some r) : writeByte s a v = writeIo r v s := by
  unfold writeByte
  rw [ha]
  simp only [hr]

/-- `DMA` is a register in both modes (R92). -/
theorem ioReg_dma (color : Bool) : ioReg color 0x46 = some .dma := by cases color <;> rfl

theorem region_below {a : Word} (h : a.toNat < 0xE000) :
    (∀ off, region a ≠ .oam off) ∧ ∀ n, region a ≠ .io n := by
  rw [region_unechoed h, regionOf, if_pos (show a.toNat < 0xFE00 by omega)]
  repeat' split
  all_goals exact ⟨nofun, nofun⟩

/-- Below `0xE000` no read sees OAM or `DMA`. -/
theorem readWith_source {g : Bool} {a : Word} (h : a.toNat < 0xE000) (s : State) (m : Memory) (d : Byte) :
    readWith g { s with oam := m, bus := { s.bus with dma := d } } a = readWith g s a := by
  obtain ⟨hoam, hio⟩ := region_below h
  unfold readWith
  cases hr : region a with
  | oam off => exact absurd hr (hoam off)
  | io n => exact absurd hr (hio n)
  | _ => rfl

/-- The copy from a source below `0xE000`, from byte `i` on: it reads what the source had before, and leaves the bytes
below `i` alone. -/
theorem oamCopy_below {src : Word} {n i : Nat} {s : State} (hw : s.oam.wf = true)
    (hs : src.toNat + (i + n) ≤ 0xE000) :
    ∃ m, oamCopy src i n s = .ok { s with oam := m } ∧
      (∀ k, i ≤ k → k < i + n → readWith false s (src + BitVec.ofNat 16 k) = .ok (m.read k)) ∧
      ∀ k, k < i → m.read k = s.oam.read k := by
  have hsrc : ∀ k, k < i + n → (src + BitVec.ofNat 16 k).toNat < 0xE000 := by
    intro k hk
    rw [BitVec.toNat_add, BitVec.toNat_ofNat]
    omega
  induction n generalizing i s with
  | zero => exact ⟨s.oam, rfl, fun k h1 h2 => by omega, fun _ _ => rfl⟩
  | succ n ih =>
    obtain ⟨b, hb⟩ := readWith_below (g := false) (s := s) (hsrc i (by omega))
    obtain ⟨m, hcopy, hread, hkeep⟩ := ih (i := i + 1) (s := { s with oam := s.oam.write i b })
      (Memory.wf_write i b hw) (by omega) fun k hk => hsrc k (by omega)
    refine ⟨m, ?_, fun k h1 h2 => ?_, fun k hk => ?_⟩
    · rw [oamCopy, hb, bind_ok]
      exact hcopy
    · obtain rfl | hlt := Nat.eq_or_lt_of_le h1
      · rw [hb, hkeep i (Nat.lt_succ_self i), Memory.read_write_same i b hw]
      · rw [← hread k hlt (by omega)]
        exact (readWith_source (hsrc k h2) s _ s.bus.dma).symm
    · rw [hkeep k (Nat.lt_succ_of_lt hk), Memory.read_write_other b (Nat.ne_of_lt hk)]

/-- A write of `DMA` with a source page: the copy of 160 bytes. -/
theorem writeDma_source {s : State} {v : Byte} (hw : s.oam.wf = true) (hv : v.toNat < 0xE0) :
    ∃ m, writeDma v s = .ok { s with oam := m, bus := { s.bus with dma := v } } ∧
      ∀ i, i < 160 → readWith false s (word v 0 + BitVec.ofNat 16 i) = .ok (m.read i) := by
  have hsrc : (word v 0).toNat = 256 * v.toNat := by rw [word_toNat]; rfl
  obtain ⟨m, hcopy, hread, -⟩ :=
    oamCopy_below (src := word v 0) (n := 160) (i := 0) (s := { s with bus := { s.bus with dma := v } }) hw (by omega)
  refine ⟨m, (if_pos hv).trans hcopy, fun i hi => ?_⟩
  rw [← hread i (Nat.zero_le i) (by omega)]
  refine (readWith_source ?_ s s.oam v).symm
  rw [BitVec.toNat_add, BitVec.toNat_ofNat]
  omega

/-- Settles O54: with a source page the copy, without one the register alone. -/
theorem oamDma : Obligations.OamDma := by
  intro s v hw
  have hwrite : writeByte s 0xFF46#16 v = writeDma v s := writeByte_io v rfl (ioReg_dma _)
  have hread : ∀ m, readByte { s with oam := m, bus := { s.bus with dma := v } } 0xFF46#16 = .ok v :=
    fun m => readByte_io rfl (ioReg_dma _)
  rw [hwrite]
  by_cases hv : v.toNat < 0xE0
  · obtain ⟨m, hdma, hcopy⟩ := writeDma_source hw hv
    exact ⟨_, hdma, rfl, hread m, fun _ => hcopy, fun h => absurd hv (by omega)⟩
  · exact ⟨_, if_neg hv, rfl, hread s.oam, fun h => absurd h hv, fun _ => rfl⟩

end Sys2Proof.Machine
end

section
/-! SUPPORT. One block of a horizontal-blank transfer (spec/20_memory.md R99). -/

namespace Sys2Proof.Machine

/-- What follows the copy of a block: the last block ends the transfer, any other counts down. -/
theorem hdmaBlock_of_copy {s u : State} (h : hdmaCopy 16 s = .ok u) :
    ∃ t, hdmaBlock s = .ok t ∧
      t = { u with bus := { u.bus with hdmaLen := t.bus.hdmaLen, hdmaActive := t.bus.hdmaActive,
                                       hdma5Idle := t.bus.hdma5Idle } } ∧
      (u.bus.hdmaLen = 0 → t.bus.hdmaActive = false ∧ readIo .hdma5 t = 0xFF) ∧
      (u.bus.hdmaLen ≠ 0 → t.bus.hdmaActive = u.bus.hdmaActive ∧ t.bus.hdmaLen = u.bus.hdmaLen - 1) := by
  rw [hdmaBlock, h, bind_ok]
  by_cases hlen : u.bus.hdmaLen = 0
  · rw [if_pos hlen]
    exact ⟨_, rfl, rfl, fun _ => ⟨rfl, rfl⟩, fun hne => absurd hlen hne⟩
  · rw [if_neg hlen]
    exact ⟨_, rfl, rfl, fun h0 => absurd h0 hlen, fun _ => ⟨rfl, rfl⟩⟩

/-- Settles O55: the copy of an aligned block (`hdmaCopy_apart`), then the count. -/
theorem hdmaBlockCopies : Obligations.HdmaBlockCopies := by
  intro s hw hactive ⟨hsrc, hdst⟩ source dest
  have hapart := apart_aligned hsrc hdst
  have hdest : ∀ i, (s.bus.hdmaDst + BitVec.ofNat 13 i).toNat = (s.bus.hdmaDst.toNat + i) % 8192 := by
    intro i
    rw [BitVec.toNat_add, BitVec.toNat_ofNat]
    omega
  refine ⟨fun hr => ?_, fun k e hk hr he => bind_of_error (hdmaCopy_apart_error hapart hk he hr) _⟩
  obtain ⟨m, hcopy, hread, hkeep⟩ := hdmaCopy_apart hapart (by decide) hw hr
  simp only [hdest] at hread hkeep
  obtain ⟨t, hblock, ht, hlast, hmore⟩ := hdmaBlock_of_copy hcopy
  have hvram : t.vram = m := by rw [ht]
  have hbus : t.bus.hdmaSrc = s.bus.hdmaSrc + 16 ∧ t.bus.hdmaDst = s.bus.hdmaDst + 16 := by
    rw [ht]
    exact ⟨rfl, rfl⟩
  refine ⟨t, hblock, ?_, ?_, ?_, fun i hi => ?_, fun o ho => ?_, hlast, fun hne => ?_⟩
  · rw [ht]
  · rw [hbus.1]; exact BitVec.toNat_add _ _
  · rw [hbus.2]; exact BitVec.toNat_add _ _
  · rw [hvram]; exact hread i hi
  · rw [hvram]; exact hkeep o ho
  · obtain ⟨hstill, hlen⟩ := hmore hne
    exact ⟨hstill.trans hactive, hlen⟩

end Sys2Proof.Machine
end

section
/-! SUPPORT. The decoder on a byte sequence cut into opcode, operands and what follows, and encoding what was decoded
(spec/30_encoding.md R120, R121, R130 to R132, R137). -/

namespace Sys2Proof.Machine

/-- R120: at most two operand bytes follow an opcode byte. -/
theorem operandCount_le_two : ∀ op : Byte, Decode.operandCount op ≤ 2 := by decide

/-- The opcodes with an 8-bit operand (`d8`, `e8`, `a8` of R121, and the second byte of `STOP`), other than `0xCB`. -/
def byteOperandOpcodes : List Byte :=
  [0x06, 0x0E, 0x16, 0x1E, 0x26, 0x2E, 0x36, 0x3E, 0x10, 0x18, 0x20, 0x28, 0x30, 0x38,
    0xC6, 0xCE, 0xD6, 0xDE, 0xE6, 0xEE, 0xF6, 0xFE, 0xE0, 0xF0, 0xE8, 0xF8]

/-- The opcodes with a 16-bit operand (`d16`, `a16` of R121). -/
def wordOperandOpcodes : List Byte :=
  [0x01, 0x11, 0x21, 0x31, 0x08, 0xC2, 0xCA, 0xD2, 0xDA, 0xC3, 0xC4, 0xCC, 0xD4, 0xDC, 0xCD, 0xEA, 0xFA]

theorem operandCount_eq_one : ∀ op : Byte, Decode.operandCount op = 1 → op = 0xCB ∨ op ∈ byteOperandOpcodes := by
  decide

theorem operandCount_eq_two : ∀ op : Byte, Decode.operandCount op = 2 → op ∈ wordOperandOpcodes := by decide

/-- `i` is encoded as the bytes `l`, and is not the row of `0xCB`, whose words are other instructions' (R134). -/
def EncodedAs (i : Instr) (l : List Byte) : Prop := encode i = l ∧ i.notPrefixRow = true

/-- An opcode without operand bytes is its instruction's whole word (the cells of R130). -/
theorem encodedAs_noOperand (op : Byte) (h : Decode.operandCount op = 0) : EncodedAs (instrOf op 0 0) [op] := by
  unfold EncodedAs
  revert op
  decide

/-- The cells of the second-byte map R131. -/
theorem encodedAs_secondByte : ∀ op2 : Byte, EncodedAs (instrOf 0xCB op2 0) [0xCB, op2] := by
  unfold EncodedAs
  decide

theorem encodedAs_byteOperand {op : Byte} (h : op ∈ byteOperandOpcodes) (b : Byte) :
    EncodedAs (instrOf op b 0) [op, b] := by
  fin_cases h <;> exact ⟨rfl, rfl⟩

theorem encodedAs_wordOperand {op : Byte} (h : op ∈ wordOperandOpcodes) (b1 b2 : Byte) :
    EncodedAs (instrOf op b1 b2) [op, b1, b2] := by
  have hbytes : ∀ op : Byte, [op, loByte (word b2 b1), hiByte (word b2 b1)] = [op, b1, b2] := by simp
  fin_cases h <;> exact ⟨hbytes _, rfl⟩

/-- What the decoder makes of an opcode and as many operand bytes as it has is encoded as these bytes. -/
theorem encodedAs_instrOf {op : Byte} {bs : List Byte} (h : bs.length = Decode.operandCount op) :
    EncodedAs (instrOf op (bs.getD 0 0) (bs.getD 1 0)) (op :: bs) := by
  match bs, h with
  | [], h => exact encodedAs_noOperand op h.symm
  | [b], h =>
    obtain rfl | hop := operandCount_eq_one op h.symm
    · exact encodedAs_secondByte b
    · exact encodedAs_byteOperand hop b
  | [b1, b2], h => exact encodedAs_wordOperand (operandCount_eq_two op h.symm) b1 b2
  | _ :: _ :: _ :: _, h => exact absurd (h ▸ operandCount_le_two op) (by simp)

/-- The decoder takes the operand bytes the opcode asks for and leaves what follows them. -/
theorem decode_append {op : Byte} {bs : List Byte} (h : bs.length = Decode.operandCount op) (rest : List Byte) :
    decode (op :: (bs ++ rest)) = .ok (instrOf op (bs.getD 0 0) (bs.getD 1 0), rest) := by
  simp only [decode, ← h]
  match bs, h with
  | [], _ => rfl
  | [_], _ => rfl
  | [_, _], _ => rfl
  | _ :: _ :: _ :: _, h => exact absurd (h ▸ operandCount_le_two op) (by simp)

/-- Too few bytes after the opcode are refused. -/
theorem decode_truncated {op : Byte} {rest : List Byte} (h : rest.length < Decode.operandCount op) :
    decode (op :: rest) = .error (.truncated op) := by
  simp only [decode]
  split
  case h_1 hc => exact absurd h (by simp [hc])
  case h_2 hc => exact absurd h (by simp [hc])
  case h_3 hc => exact absurd h (by simp [hc])
  case h_4 => rfl

/-- With enough bytes after the opcode the decoder answers an instruction, encoded as the bytes it was read from. -/
theorem decode_complete {op : Byte} {rest : List Byte} (h : Decode.operandCount op ≤ rest.length) :
    ∃ i, decode (op :: rest) = .ok (i, rest.drop (Decode.operandCount op)) ∧
      EncodedAs i (op :: rest.take (Decode.operandCount op)) := by
  have hlen : (rest.take (Decode.operandCount op)).length = Decode.operandCount op := List.length_take_of_le h
  have hdec := decode_append hlen (rest.drop (Decode.operandCount op))
  rw [List.take_append_drop] at hdec
  exact ⟨_, hdec, encodedAs_instrOf hlen⟩

/-- Settles O2: the rule `decode_encode`. -/
theorem decodeOfEncode : Obligations.DecodeOfEncode := fun _ rest h => decode_encode h rest

/-- Settles O3: what decodes is complete (`decode_complete`), and its operands and the rest make up the sequence. -/
theorem encodeOfDecode : Obligations.EncodeOfDecode := by
  intro bs i rest hd
  cases bs with
  | nil => cases hd
  | cons op tail =>
    obtain hshort | hlen := Nat.lt_or_ge tail.length (Decode.operandCount op)
    · rw [decode_truncated hshort] at hd
      cases hd
    · obtain ⟨_, hok, henc, hrow⟩ := decode_complete hlen
      rw [hok] at hd
      cases hd
      exact ⟨by rw [henc, List.cons_append, List.take_append_drop], hrow⟩

/-- Settles O4: the length is one more than the operand count of the decoder. -/
theorem lengthByOpcode : Obligations.LengthByOpcode := by
  refine ⟨fun op => Decode.operandCount op + 1, rfl, fun op =>
    ⟨Nat.le_add_left _ _, ?_, fun rest => ⟨fun h => ?_, fun h => ?_⟩⟩⟩
  · exact Nat.succ_le_succ (operandCount_le_two op)
  · exact decode_truncated (Nat.lt_of_succ_lt_succ h)
  · have hlen := Nat.le_of_succ_le_succ h
    obtain ⟨i, hok, henc, -⟩ := decode_complete hlen
    exact ⟨i, hok, by rw [henc, List.length_cons, List.length_take_of_le hlen]⟩

/-- Settles O1: the decoder evaluated on each of the words. -/
theorem decodedWords : Obligations.DecodedWords :=
  ⟨rfl, rfl, rfl, rfl, rfl, rfl, rfl, rfl, rfl, rfl, rfl, rfl, rfl⟩

end Sys2Proof.Machine
end

section
/-! SUPPORT. The unassigned first bytes and the row of `0xCB` (spec/30_encoding.md R132, R134, spec/46_system.md R325,
R326). -/

namespace Sys2Proof.Machine

/-- An unassigned first byte decodes to its row, whatever follows (R132). -/
theorem decode_illegalByte (b : IllegalByte) (rest : List Byte) :
    decode (illegalByte b :: rest) = .ok ((Form.illegal b).toInstr, rest) := by
  cases b <;> rfl

/-- The meaning of an illegal row is the fault that names its byte, under the one policy there is (R326). -/
theorem exec_illegal (b : IllegalByte) (s : State) :
    exec (Form.illegal b).toInstr s = .fault (.illegalOpcode (illegalByte b)) := by
  refine exec_fault ?_
  show illegal b s = _
  unfold illegal
  cases s.params.illegal
  rfl

/-- Settles O11: each of the bytes names an illegal row. -/
theorem illegalOpcodesFault : Obligations.IllegalOpcodesFault := by
  intro op hop rest s
  obtain ⟨b, rfl⟩ : ∃ b, op = illegalByte b := by
    fin_cases hop
    exacts [⟨.xD3, rfl⟩, ⟨.xDB, rfl⟩, ⟨.xDD, rfl⟩, ⟨.xE3, rfl⟩, ⟨.xE4, rfl⟩, ⟨.xEB, rfl⟩, ⟨.xEC, rfl⟩, ⟨.xED, rfl⟩,
      ⟨.xF4, rfl⟩, ⟨.xFC, rfl⟩, ⟨.xFD, rfl⟩]
  exact ⟨_, decode_illegalByte b rest, exec_illegal b s⟩

/-- The standard cost of an instruction is the one of its form (R570). -/
theorem cost_standard {s : State} (h : s.params.cycles = .standard) (i : Instr) :
    cost i s = formCycles (taken i s) i.form := by
  unfold cost
  rw [h]

/-- The form a second opcode byte selects costs what the row of `0xCB` with that byte does (R325). -/
theorem cbForm_cycles : ∀ (t : Bool) (op2 : Byte), formCycles t (Decode.cbForm op2) = secondCost op2 := by decide

/-- Settles O13: the row of `0xCB` runs `runSecond`, as the row of the second byte's form does (`cbForm_run`). -/
theorem prefixRunsSecond : Obligations.PrefixRunsSecond := by
  intro op2 s
  refine ⟨(Decode.cbForm op2).toInstr, rfl, ?_, rfl, fun hc => ?_⟩
  · rw [exec_toInstr, cbForm_run]
    rfl
  · rw [cost_standard hc, cost_standard hc, form_toInstr, cbForm_cycles]
    rfl

end Sys2Proof.Machine
end

section
/-! SUPPORT. The row of an instruction rule (spec/00_scope.md R14, spec/30_encoding.md R121) by its operand bytes. -/

namespace Sys2Proof.Machine

/-- The row of a form whose cost does not depend on a condition (R570). -/
theorem row_of_encode {f : Form} {bytes : List Nat} {n : Nat} (henc : encode f.toInstr = bytes.map (BitVec.ofNat 8))
    (hcost : ∀ taken, formCycles taken f = n) : Row f bytes n :=
  ⟨henc, fun s hs => by rw [cost_standard hs, form_toInstr, hcost]⟩

theorem row_byteOperand {f : Form} {op n : Nat} {b : Byte} (henc : encode f.toInstr = [BitVec.ofNat 8 op, b])
    (hcost : ∀ taken, formCycles taken f = n) : Row f [op, b.toNat] n := by
  refine row_of_encode (henc.trans ?_) hcost
  simp only [List.map_cons, List.map_nil, BitVec.ofNat_toNat, BitVec.setWidth_eq]

/-- A 16-bit operand is encoded low byte first (R121). -/
theorem row_wordOperand {f : Form} {op n : Nat} {w : Word}
    (henc : encode f.toInstr = [BitVec.ofNat 8 op, loByte w, hiByte w]) (hcost : ∀ taken, formCycles taken f = n) :
    Row f [op, w.toNat % 256, w.toNat / 256] n := by
  refine row_of_encode (henc.trans ?_) hcost
  simp only [List.map_cons, List.map_nil, ← loByte_toNat, ← hiByte_toNat, BitVec.ofNat_toNat, BitVec.setWidth_eq]

end Sys2Proof.Machine
end

section
/-! SUPPORT. The 8-bit loads and stores (spec/40_load8.md R160 to R178): a load is `setReg` of the byte it takes, a
store is the bus write of its byte, and the stepping forms then set `HL`. -/

namespace Sys2Proof.Machine

/-- A form that writes one register and nothing else. -/
theorem exec_setReg {f : Form} {dst : Reg8} {v : Byte} {s : State} (h : runForm f s = .ok (setReg dst v s)) :
    ∃ t, exec f.toInstr s = .next t ∧ getReg dst t = v ∧ Frame [dst] s t ∧ t.cpu.flags = s.cpu.flags :=
  ⟨_, exec_next h, getReg_setReg_same dst v s, frame_setReg dst v s, flags_setReg dst v s⟩

/-- Settles O14: both forms are `setReg`. -/
theorem loadRegister : Obligations.LoadRegister := by
  intro dst src imm s
  refine ⟨row_of_encode ?_ fun _ => rfl, row_byteOperand ?_ fun _ => rfl,
    exec_setReg (f := .ldReg dst src) rfl, exec_setReg (f := .ldImm dst imm) rfl⟩
  · cases dst <;> cases src <;> rfl
  · cases dst <;> rfl

/-- Each form of a load reads at the address the statements give it. -/
theorem runForm_load {f : Form} {dst : Reg8} {addr : Word} {s : State} (h : LoadForm f dst addr s) :
    runForm f s = loadFrom dst addr s := by
  obtain ⟨rfl, rfl⟩ | ⟨rfl, rfl, rfl⟩ | ⟨rfl, rfl, rfl⟩ | ⟨rfl, rfl⟩ | ⟨lo, rfl, rfl, haddr⟩ | ⟨rfl, rfl, haddr⟩ := h
  · rfl
  · rfl
  · rfl
  · rfl
  · rw [eq_highPage haddr]; rfl
  · rw [eq_highPage haddr]; rfl

theorem loadFrom_ok {dst : Reg8} {addr : Word} {v : Byte} {s : State} (h : readByte s addr = .ok v) :
    loadFrom dst addr s = .ok (setReg dst v s) := by
  rw [loadFrom, h, bind_ok]

/-- A stepping load writes `A`, then moves `HL` modulo `2^16` (R176, R178). -/
theorem exec_loadHlStep {f : Form} {step : Word} {v : Byte} {s : State} (hf : runForm f s = loadHlStep step s)
    (h : readByte s (hl s) = .ok v) :
    ∃ t, exec f.toInstr s = .next t ∧ t.cpu.a = v ∧ (hl t).toNat = ((hl s).toNat + step.toNat) % 65536 ∧
      Frame [.a, .h, .l] s t ∧ t.cpu.flags = s.cpu.flags := by
  have hrun : loadHlStep step s = .ok (setHl (hl s + step) (setReg .a v s)) := by
    rw [loadHlStep, h, bind_ok]
  have hframe : Frame [.a, .h, .l] s (setHl (hl s + step) (setReg .a v s)) :=
    ((frame_setReg .a v s).mono (by simp)).trans ((frame_setHl _ _).mono (by simp))
  refine ⟨_, exec_next (hf.trans hrun), rfl, ?_, hframe, rfl⟩
  rw [hl_setHl, BitVec.toNat_add]

/-- Settles O15: the eight loads are `loadFrom` or `loadHlStep`, whose read comes first. -/
theorem loadFromMemory : Obligations.LoadFromMemory := by
  refine ⟨fun dst addr lo => ?_, fun f dst addr s hf => ⟨fun v hv => ?_, fun e he => ?_⟩,
    fun s => ⟨fun v hv => ?_, fun e he => ?_⟩⟩
  · have hfromHl : Row (.ldFromHl dst) [0x46 + 8 * regNumber dst] 8 :=
      row_of_encode (by cases dst <;> rfl) fun _ => rfl
    exact ⟨hfromHl, row_of_encode rfl fun _ => rfl, row_of_encode rfl fun _ => rfl,
      row_wordOperand rfl fun _ => rfl, row_byteOperand rfl fun _ => rfl, row_of_encode rfl fun _ => rfl,
      row_of_encode rfl fun _ => rfl, row_of_encode rfl fun _ => rfl⟩
  · exact exec_setReg ((runForm_load hf).trans (loadFrom_ok hv))
  · exact exec_fault ((runForm_load hf).trans (bind_of_error he _))
  · exact ⟨exec_loadHlStep (f := .ldAFromHlInc) (step := 1) rfl hv,
      exec_loadHlStep (f := .ldAFromHlDec) (step := -1) rfl hv⟩
  · exact ⟨exec_fault (f := .ldAFromHlInc) (bind_of_error he _), exec_fault (f := .ldAFromHlDec) (bind_of_error he _)⟩

/-- Each form of a store writes the byte at the address the statements give it. -/
theorem runForm_store {f : Form} {addr : Word} {v : Byte} {s : State} (h : StoreForm f addr v s) :
    runForm f s = writeByte s addr v := by
  obtain ⟨r, rfl, rfl, rfl⟩ | ⟨rfl, rfl⟩ | ⟨rfl, rfl, rfl⟩ | ⟨rfl, rfl, rfl⟩ | ⟨rfl, rfl⟩ | ⟨lo, rfl, haddr, rfl⟩ |
    ⟨rfl, haddr, rfl⟩ := h
  · rfl
  · rfl
  · rfl
  · rfl
  · rfl
  · rw [eq_highPage haddr]; rfl
  · rw [eq_highPage haddr]; rfl

/-- A stepping store is the bus write, which leaves the processor alone, then the move of `HL` modulo `2^16`
(R175, R177). -/
theorem exec_storeHlStep {f : Form} {step : Word} {s u : State} (hf : runForm f s = storeHlStep step s)
    (h : writeByte s (hl s) s.cpu.a = .ok u) :
    ∃ t, exec f.toInstr s = .next t ∧ (hl t).toNat = ((hl s).toNat + step.toNat) % 65536 ∧
      t = { u with cpu := { s.cpu with h := t.cpu.h, l := t.cpu.l } } := by
  have hcpu : u.cpu = s.cpu := writeByte_cpu h
  have hhl : hl u = hl s := by rw [hl, hcpu, hl]
  have hrun : storeHlStep step s = .ok (setHl (hl u + step) u) := by rw [storeHlStep, h, bind_ok]
  refine ⟨_, exec_next (hf.trans hrun), ?_, ?_⟩
  · rw [hl_setHl, BitVec.toNat_add, hhl]
  · rw [← hcpu]; rfl

/-- Settles O16: the nine stores are one bus write, after which the stepping ones move `HL`. -/
theorem storeToMemory : Obligations.StoreToMemory := by
  refine ⟨fun src addr v => ?_, fun f addr v s hf => ⟨fun t ht => ?_, fun e he => ?_⟩, fun s u hu => ?_,
    fun s e he => ?_⟩
  · have htoHl : Row (.ldToHl src) [0x70 + regNumber src] 8 := row_of_encode (by cases src <;> rfl) fun _ => rfl
    exact ⟨htoHl, row_byteOperand rfl fun _ => rfl, row_of_encode rfl fun _ => rfl, row_of_encode rfl fun _ => rfl,
      row_wordOperand rfl fun _ => rfl, row_byteOperand rfl fun _ => rfl, row_of_encode rfl fun _ => rfl,
      row_of_encode rfl fun _ => rfl, row_of_encode rfl fun _ => rfl⟩
  · exact ⟨exec_next ((runForm_store hf).trans ht), writeByte_cpu ht⟩
  · exact exec_fault ((runForm_store hf).trans he)
  · exact ⟨exec_storeHlStep (f := .ldToHlIncA) (step := 1) rfl hu,
      exec_storeHlStep (f := .ldToHlDecA) (step := -1) rfl hu⟩
  · exact ⟨exec_fault (f := .ldToHlIncA) (bind_of_error he _), exec_fault (f := .ldToHlDecA) (bind_of_error he _)⟩

end Sys2Proof.Machine
end

section
/-! SUPPORT. The 16-bit loads and the stack (spec/41_load16_stack.md R200 to R207, spec/43_alu16.md R263, R264): loads
of a pair or of `SP`, `SP` with a signed offset, and the pushes and pops on any stack. -/

namespace Sys2Proof.Machine

/-- The result of `AddSpE8` in exact arithmetic (R264, with the sign extension of R12). -/
theorem addSpE8_toNat (sp : Word) (e : Byte) : ((addSpE8 sp e).1.toNat : Int) =
    ((sp.toNat : Int) + if e.toNat < 128 then (e.toNat : Int) else (e.toNat : Int) - 256) % 65536 := by
  rw [addSpE8, ofInt16_toNat, toInt_byte]

/-- Settles O20: both forms are `addSpE8`, written to `SP` or to `HL`, then its flags. -/
theorem stackPointerOffset : Obligations.StackPointerOffset := by
  intro e s
  refine ⟨row_byteOperand rfl fun _ => rfl, row_byteOperand rfl fun _ => rfl,
    ⟨_, exec_next (f := .addSp e) rfl, addSpE8_toNat s.cpu.sp e, rfl, fun r _ => ?_, rfl,
      ⟨rfl, rfl, rfl, rfl, rfl⟩, rfl⟩,
    ⟨_, exec_next (f := .ldHlSp e) rfl, ?_, rfl, (frame_setHl _ s).trans (frame_setFlags _ _ _)⟩⟩
  · rw [getReg_setFlags, getReg_setSp]
  · show ((hl (setHl (addSpE8 s.cpu.sp e).1 s)).toNat : Int) = _
    rw [hl_setHl, addSpE8_toNat]

/-- Settles O18: the operand of `LD rr,d16` is the word of its two bytes, each of which goes to its half. -/
theorem loadPair : Obligations.LoadPair := by
  intro r imm s
  have hrow : Row (.ldPair r imm) [0x01 + 16 * pairNumber r, imm.toNat % 256, imm.toNat / 256] 12 :=
    row_wordOperand (by cases r <;> rfl) fun _ => rfl
  have himm : imm.toNat = 256 * (hiByte imm).toNat + (loByte imm).toNat := by rw [← word_toNat, word_hi_lo]
  have hhl : (hl s).toNat = 256 * s.cpu.h.toNat + s.cpu.l.toNat := word_toNat _ _
  exact ⟨hrow, row_of_encode rfl fun _ => rfl, exec_next (f := .ldPair .bc imm) rfl,
    exec_next (f := .ldPair .de imm) rfl, exec_next (f := .ldPair .hl imm) rfl, exec_next (f := .ldPair .sp imm) rfl,
    exec_next (f := .ldSpHl) rfl, himm, hhl⟩

/-- `LD (a16),SP` is its two bus writes in order; the first leaves `SP`, of which the second takes the high byte. -/
theorem storeSp_ok {addr : Word} {s s1 s2 : State} (h1 : writeByte s addr (loByte s.cpu.sp) = .ok s1)
    (h2 : writeByte s1 (addr + 1) (hiByte s.cpu.sp) = .ok s2) : storeSp addr s = .ok s2 := by
  rw [storeSp, h1, bind_ok, writeByte_cpu h1, h2]

/-- Settles O19: the two bus writes of `storeSp`, which leave the processor alone. -/
theorem storeStackPointer : Obligations.StoreStackPointer := by
  intro addr s s1 s2 h1 h2
  exact ⟨exec_next (f := .ldToAbsSp addr) (storeSp_ok h1 h2), (writeByte_cpu h2).trans (writeByte_cpu h1),
    row_wordOperand rfl fun _ => rfl⟩

/-- Settles O21: a push form is `push16` of its word. -/
theorem pushForms : Obligations.PushForms := by
  intro f v s s1 s2 hf h1 h2
  obtain ⟨hpush, hcpu⟩ := push16_ok h1 h2
  refine ⟨exec_next ((runForm_push hf).trans hpush), hcpu, ?_⟩
  obtain ⟨rfl, -⟩ | ⟨rfl, -⟩ | ⟨rfl, -⟩ | ⟨rfl, -⟩ := hf <;> exact row_of_encode rfl fun _ => rfl

/-- A pop form writes the word of the two bytes read to its pair, after the move of `SP` (R206). -/
theorem exec_pop {lo hi : Byte} {s : State} (hlo : readByte s s.cpu.sp = .ok lo)
    (hhi : readByte s (s.cpu.sp + 1) = .ok hi) (r : StackPair) :
    exec (Form.pop r).toInstr s = .next (setStackPair r (word hi lo) (setSp (s.cpu.sp + 2) s)) := by
  refine exec_next (f := .pop r) ?_
  show popPair r s = _
  rw [popPair, pop16_ok hlo hhi, bind_ok]

/-- `POP AF` is the same for `A` and `F` (R207). -/
theorem exec_popAf {lo hi : Byte} {s : State} (hlo : readByte s s.cpu.sp = .ok lo)
    (hhi : readByte s (s.cpu.sp + 1) = .ok hi) :
    exec .popAf s = .next (setAf (word hi lo) (setSp (s.cpu.sp + 2) s)) := by
  refine exec_next (f := .popAf) ?_
  show popAf s = _
  rw [popAf, pop16_ok hlo hhi, bind_ok]

theorem setBc_word (hi lo : Byte) (s : State) :
    setBc (word hi lo) s = { s with cpu := { s.cpu with b := hi, c := lo } } := by
  rw [setBc, hiByte_word, loByte_word]

theorem setDe_word (hi lo : Byte) (s : State) :
    setDe (word hi lo) s = { s with cpu := { s.cpu with d := hi, e := lo } } := by
  rw [setDe, hiByte_word, loByte_word]

theorem setHl_word (hi lo : Byte) (s : State) :
    setHl (word hi lo) s = { s with cpu := { s.cpu with h := hi, l := lo } } := by
  rw [setHl, hiByte_word, loByte_word]

/-- `A` takes the high byte, `F` the low byte without its low four bits (R21). -/
theorem setAf_word (hi lo : Byte) (s : State) :
    setAf (word hi lo) s = setFlags (Flags.unpack lo) (setReg .a hi s) := by
  rw [setAf, hiByte_word, loByte_word]
  rfl

/-- Settles O23: a pop form is `pop16`, whose word goes to the pair byte by byte. -/
theorem popForms : Obligations.PopForms := by
  refine ⟨fun r => ⟨row_of_encode (by cases r <;> rfl) fun _ => rfl, row_of_encode rfl fun _ => rfl⟩,
    fun s lo hi hlo hhi => ?_⟩
  have hpop := exec_pop hlo hhi
  have hframe : Frame [.a] (setSp (s.cpu.sp + 2) s)
      (setFlags (Flags.unpack lo) (setReg .a hi (setSp (s.cpu.sp + 2) s))) :=
    (frame_setReg .a hi _).trans (frame_setFlags _ _ _)
  obtain ⟨hregs, -, hpc, hcontrol, -⟩ := hframe
  refine ⟨(hpop .bc).trans (congrArg _ (setBc_word hi lo _)), (hpop .de).trans (congrArg _ (setDe_word hi lo _)),
    (hpop .hl).trans (congrArg _ (setHl_word hi lo _)),
    _, (exec_popAf hlo hhi).trans (congrArg _ (setAf_word hi lo _)), rfl, rfl, rfl, fun r hr => ?_, hpc, hcontrol⟩
  exact (hregs r hr).trans (getReg_setSp r _ s)

end Sys2Proof.Machine
end

section
/-! SUPPORT. 8-bit arithmetic and logic (spec/42_alu8.md R220 to R252): the operands of an ALU operation, and each
result in exact arithmetic; an operation writes one register or the byte at `HL`, then the flags. -/

namespace Sys2Proof.Machine

/-- A form that writes one register and the flags, and nothing else. -/
theorem exec_setReg_setFlags {f : Form} {dst : Reg8} {v : Byte} {fl : Flags} {s : State}
    (h : runForm f s = .ok (setFlags fl (setReg dst v s))) :
    ∃ t, exec f.toInstr s = .next t ∧ Frame [dst] s t ∧ getReg dst t = v ∧ t.cpu.flags = fl :=
  ⟨_, exec_next h, (frame_setReg dst v s).trans (frame_setFlags fl _ _),
    (getReg_setFlags dst fl _).trans (getReg_setReg_same dst v s), rfl⟩

/-- The rows of every ALU operation (R130). -/
theorem aluRows (op : AluOp) : AluRows op := by
  intro src imm
  refine ⟨row_of_encode ?_ fun _ => rfl, row_of_encode ?_ fun _ => rfl, row_byteOperand ?_ fun _ => rfl⟩
  · cases op <;> cases src <;> rfl
  · cases op <;> rfl
  · cases op <;> rfl

/-- Whatever its operand form, an ALU operation runs on the value of its operand. -/
theorem runForm_alu {op : AluOp} {x : Byte} {f : Form} {s : State} (h : AluOperand op x f s) :
    runForm f s = .ok (aluValue op x s) := by
  obtain ⟨r, rfl, rfl⟩ | rfl | ⟨rfl, hx⟩ := h
  · rfl
  · rfl
  · show aluAtHl op s = _
    rw [aluAtHl, hx, bind_ok]

/-- An ALU operation leaves the value and the flags of `alu8`, and all else as it was. -/
theorem exec_alu {op : AluOp} {x : Byte} {f : Form} {s : State} (h : AluOperand op x f s) :
    ∃ t, exec f.toInstr s = .next t ∧ Frame [.a] s t ∧ t.cpu.a = (alu8 op s.cpu.a x s.cpu.cf).1 ∧
      t.cpu.flags = (alu8 op s.cpu.a x s.cpu.cf).2 :=
  exec_setReg_setFlags (dst := .a) (runForm_alu h)

/-! ### Addition and subtraction -/

theorem add8_toNat (a b : Byte) (c : Bool) : (add8 a b c).1.toNat = (a.toNat + b.toNat + c.toNat) % 256 :=
  BitVec.toNat_ofNat _ _

theorem add8_z (a b : Byte) (c : Bool) :
    (add8 a b c).2.z = decide ((a.toNat + b.toNat + c.toNat) % 256 = 0) := by
  rw [← add8_toNat]
  exact beq_zero_iff _

/-- A byte given as an integer is 0 exactly when the integer is 0 modulo 256. -/
theorem ofInt8_beq_zero (x : Int) : (BitVec.ofInt 8 x == 0) = decide (x % 256 = 0) := by
  rw [beq_zero_iff, decide_eq_decide, ← ofInt8_toNat, Int.natCast_eq_zero]

theorem sub8_toNat (a b : Byte) (c : Bool) :
    ((sub8 a b c).1.toNat : Int) = ((a.toNat : Int) - b.toNat - c.toNat) % 256 :=
  ofInt8_toNat _

theorem sub8_z (a b : Byte) (c : Bool) :
    (sub8 a b c).2.z = decide (((a.toNat : Int) - b.toNat - c.toNat) % 256 = 0) :=
  ofInt8_beq_zero _

/-- Without a borrow, the difference is 0 exactly for equal bytes (R242). -/
theorem sub8_z_eq_beq (a b : Byte) : (sub8 a b false).2.z = (a == b) := by
  have ha := a.isLt
  have hb := b.isLt
  rw [sub8_z, Bool.eq_iff_iff, decide_eq_true_eq, beq_iff_eq, ← BitVec.toNat_inj, Bool.toNat_false]
  omega

/-- An operation that adds with carry-in `c`, in exact arithmetic. -/
theorem exec_alu_add {op : AluOp} {x : Byte} {f : Form} {s : State} {c : Bool} (h : AluOperand op x f s)
    (hop : alu8 op s.cpu.a x s.cpu.cf = add8 s.cpu.a x c) :
    ∃ t, exec f.toInstr s = .next t ∧ Frame [.a] s t ∧
      t.cpu.a.toNat = (s.cpu.a.toNat + x.toNat + c.toNat) % 256 ∧
      t.cpu.zf = decide ((s.cpu.a.toNat + x.toNat + c.toNat) % 256 = 0) ∧ t.cpu.nf = false ∧
      t.cpu.hf = decide (s.cpu.a.toNat % 16 + x.toNat % 16 + c.toNat > 15) ∧
      t.cpu.cf = decide (s.cpu.a.toNat + x.toNat + c.toNat > 255) := by
  obtain ⟨t, hexec, hframe, ha, hflags⟩ := exec_alu h
  rw [hop] at ha hflags
  refine ⟨t, hexec, hframe, ?_, ?_, congrArg Flags.n hflags, congrArg Flags.h hflags, congrArg Flags.c hflags⟩
  · rw [ha, add8_toNat]
  · exact (congrArg Flags.z hflags).trans (add8_z _ _ _)

/-- An operation that subtracts with borrow-in `c`, in exact arithmetic. -/
theorem exec_alu_sub {op : AluOp} {x : Byte} {f : Form} {s : State} {c : Bool} (h : AluOperand op x f s)
    (hop : alu8 op s.cpu.a x s.cpu.cf = sub8 s.cpu.a x c) :
    ∃ t, exec f.toInstr s = .next t ∧ Frame [.a] s t ∧
      (t.cpu.a.toNat : Int) = ((s.cpu.a.toNat : Int) - x.toNat - c.toNat) % 256 ∧
      t.cpu.zf = decide (((s.cpu.a.toNat : Int) - x.toNat - c.toNat) % 256 = 0) ∧ t.cpu.nf = true ∧
      t.cpu.hf = decide (s.cpu.a.toNat % 16 < x.toNat % 16 + c.toNat) ∧
      t.cpu.cf = decide (s.cpu.a.toNat < x.toNat + c.toNat) := by
  obtain ⟨t, hexec, hframe, ha, hflags⟩ := exec_alu h
  rw [hop] at ha hflags
  refine ⟨t, hexec, hframe, ?_, ?_, congrArg Flags.n hflags, congrArg Flags.h hflags, congrArg Flags.c hflags⟩
  · rw [ha, sub8_toNat]
  · exact (congrArg Flags.z hflags).trans (sub8_z _ _ _)

/-- Settles O24: `ADD` and `SUB` have carry-in 0, `ADC` and `SBC` the carry flag. -/
theorem aluArithmetic : Obligations.AluArithmetic := by
  intro op x f s h
  refine ⟨aluRows op, ?_, ?_⟩
  · rintro (rfl | rfl)
    · exact exec_alu_add (c := false) h rfl
    · exact exec_alu_add (c := s.cpu.cf) h rfl
  · rintro (rfl | rfl)
    · exact exec_alu_sub (c := false) h rfl
    · exact exec_alu_sub (c := s.cpu.cf) h rfl

/-- Settles O25: the rule `exec_alu` for each of the three. -/
theorem aluLogic : Obligations.AluLogic := by
  intro op x f s h
  refine ⟨aluRows op, ?_, ?_, ?_⟩
  · rintro rfl
    exact exec_alu h
  · rintro rfl
    exact exec_alu h
  · rintro rfl
    exact exec_alu h

/-- Settles O26: `CP` writes `A` back to `A`, so only the flags of `sub8` change. -/
theorem aluCompare : Obligations.AluCompare := by
  intro x f s h
  have hrun : runForm f s = .ok (setFlags (sub8 s.cpu.a x false).2 s) := runForm_alu h
  refine ⟨aluRows .cp, _, exec_next hrun, frame_setFlags _ [] s, ?_⟩
  rw [flags_setFlags, ← sub8_z_eq_beq]
  rfl

/-! ### Increment and decrement -/

theorem inc8_toNat (v : Byte) (c : Bool) : (inc8 v c).1.toNat = (v.toNat + 1) % 256 := BitVec.toNat_add v 1

theorem dec8_toNat (v : Byte) (c : Bool) : (dec8 v c).1.toNat = (v.toNat + 255) % 256 := by
  show (v - 1).toNat = _
  rw [BitVec.toNat_sub, Nat.add_comm]
  rfl

/-- The flags of `INC`, with `Z` by the value of the result. -/
theorem inc8_flags (v : Byte) (c : Bool) : (inc8 v c).2 =
    { z := decide ((inc8 v c).1.toNat = 0), n := false, h := decide (v.toNat % 16 = 15), c := c } := by
  rw [← beq_zero_iff]
  rfl

/-- The flags of `DEC`, with `Z` by the value of the result. -/
theorem dec8_flags (v : Byte) (c : Bool) : (dec8 v c).2 =
    { z := decide ((dec8 v c).1.toNat = 0), n := true, h := decide (v.toNat % 16 = 0), c := c } := by
  rw [← beq_zero_iff]
  rfl

/-- Settles O29: both forms write `inc8` or `dec8` of the register, whose result is 0 for one value alone. -/
theorem incDecRegister : Obligations.IncDecRegister := by
  intro r s
  have hlt := (getReg r s).isLt
  refine ⟨row_of_encode (by cases r <;> rfl) fun _ => rfl, row_of_encode (by cases r <;> rfl) fun _ => rfl, ?_, ?_⟩
  · obtain ⟨t, hexec, hframe, hr, hflags⟩ := exec_setReg_setFlags (f := .incReg r) (s := s) rfl
    have hzero : ((getReg r s).toNat + 1) % 256 = 0 ↔ (getReg r s).toNat = 255 := by omega
    refine ⟨t, hexec, hframe, by rw [hr, inc8_toNat], ?_⟩
    rw [hflags, inc8_flags, inc8_toNat, decide_eq_decide.mpr hzero]
  · obtain ⟨t, hexec, hframe, hr, hflags⟩ := exec_setReg_setFlags (f := .decReg r) (s := s) rfl
    have hzero : ((getReg r s).toNat + 255) % 256 = 0 ↔ (getReg r s).toNat = 1 := by omega
    refine ⟨t, hexec, hframe, by rw [hr, dec8_toNat], ?_⟩
    rw [hflags, dec8_flags, dec8_toNat, decide_eq_decide.mpr hzero]

/-- Rewriting the byte at `HL` with its flags is the bus write, then the flags. -/
theorem modifyAtHl_ok {f : Byte → Byte × Flags} {v : Byte} {s u : State} (hr : readByte s (hl s) = .ok v)
    (hw : writeByte s (hl s) (f v).1 = .ok u) : modifyAtHl f s = .ok (setFlags (f v).2 u) := by
  rw [modifyAtHl, hr, bind_ok, hw, bind_ok]

/-- Settles O30: both forms rewrite the byte at `HL`, and the bus write leaves the processor alone. -/
theorem incDecMemory : Obligations.IncDecMemory := by
  intro s u v r hr hw
  have hcpu : u.cpu = s.cpu := writeByte_cpu hw
  refine ⟨row_of_encode rfl fun _ => rfl, row_of_encode rfl fun _ => rfl, fun h => ?_, fun h => ?_⟩
  · obtain rfl : r = (inc8 v s.cpu.cf).1 := BitVec.eq_of_toNat_eq (h.trans (inc8_toNat v _).symm)
    refine ⟨_, exec_next (f := .incAtHl) (modifyAtHl_ok hr hw), ?_⟩
    rw [inc8_flags, setFlags, hcpu]
  · obtain rfl : r = (dec8 v s.cpu.cf).1 := BitVec.eq_of_toNat_eq (h.trans (dec8_toNat v _).symm)
    refine ⟨_, exec_next (f := .decAtHl) (modifyAtHl_ok hr hw), ?_⟩
    rw [dec8_flags, setFlags, hcpu]

/-- Settles O33: each operation sets its flags, `CPL` after the complement of `A`. -/
theorem complementAndCarry : Obligations.ComplementAndCarry := by
  intro s
  have hcompl : s.cpu.a ^^^ 0xFF#8 = ~~~s.cpu.a := BitVec.xor_allOnes
  refine ⟨row_of_encode rfl fun _ => rfl, row_of_encode rfl fun _ => rfl, row_of_encode rfl fun _ => rfl, ?_,
    exec_next (f := .scf) rfl, exec_next (f := .ccf) rfl⟩
  rw [hcompl]
  exact exec_next (f := .cpl) rfl

/-! ### Decimal adjustment -/

theorem daa8_toNat (a : Byte) (f : Flags) : ((daa8 a f).1.toNat : Int) = daaValue a f % 256 := ofInt8_toNat _

theorem daa8_z (a : Byte) (f : Flags) : (daa8 a f).2.z = decide (daaValue a f % 256 = 0) := ofInt8_beq_zero _

theorem exec_daa (s : State) : ∃ t, exec .daa s = .next t ∧ Frame [.a] s t ∧
    t.cpu.a = (daa8 s.cpu.a s.cpu.flags).1 ∧ t.cpu.flags = (daa8 s.cpu.a s.cpu.flags).2 :=
  exec_setReg_setFlags (f := .daa) (dst := .a) rfl

/-- The adjusted accumulator as one sum or difference (R249). -/
theorem daaValue_eq (a : Byte) (f : Flags) : daaValue a f =
    if f.n then (a.toNat : Int) - ((if f.c then 0x60 else 0) + if f.h then 0x06 else 0)
    else a.toNat + ((if f.c || decide (a.toNat > 0x99) then 0x60 else 0) +
      if f.h || decide (a.toNat % 16 > 9) then 0x06 else 0) := by
  rw [daaValue, Int.sub_sub, Int.add_assoc]

/-- Settles O31: the equation `daaValue_eq`, reduced modulo 256. -/
theorem daaResult : Obligations.DaaResult := by
  intro s
  obtain ⟨t, hexec, hframe, ha, hflags⟩ := exec_daa s
  refine ⟨row_of_encode rfl fun _ => rfl, t, hexec, hframe, ?_, ?_⟩
  · rw [ha, daa8_toNat, daaValue_eq]
    rfl
  · rw [hflags]
    exact congrArg (Flags.mk · _ _ _) ((daa8_z _ _).trans (by rw [daaValue_eq]; rfl))

/-- `DAA` after an addition with carry-in `c` of the decimal numbers `m` and `n`, two digits each: the low digit is
adjusted exactly when the digits' sum has a decimal carry, the high digit exactly when the whole sum has. -/
theorem daa8_add8_decimal {a x : Byte} {m n : Nat} (c : Bool) (hm : m < 100) (hn : n < 100)
    (ha : a.toNat = 16 * (m / 10) + m % 10) (hx : x.toNat = 16 * (n / 10) + n % 10) :
    (daa8 (add8 a x c).1 (add8 a x c).2).1.toNat =
        16 * ((m + n + c.toNat) % 100 / 10) + (m + n + c.toNat) % 10 ∧
      (daa8 (add8 a x c).1 (add8 a x c).2).2.c = decide (100 ≤ m + n + c.toNat) := by
  have hc := c.toNat_le
  have hlow : ((add8 a x c).2.h || decide ((add8 a x c).1.toNat % 16 > 9)) =
      decide (10 ≤ m % 10 + n % 10 + c.toNat) := by
    rw [add8_toNat, add8, ← Bool.decide_or, decide_eq_decide]
    omega
  have hhigh : ((add8 a x c).2.c || decide ((add8 a x c).1.toNat > 0x99)) = decide (100 ≤ m + n + c.toNat) := by
    rw [add8_toNat, add8, ← Bool.decide_or, decide_eq_decide]
    omega
  refine ⟨?_, hhigh⟩
  have hvalue := daa8_toNat (add8 a x c).1 (add8 a x c).2
  rw [daaValue_eq, if_neg (show ¬(add8 a x c).2.n = true from Bool.false_ne_true), hlow, hhigh, add8_toNat] at hvalue
  simp only [decide_eq_true_eq] at hvalue
  split at hvalue <;> split at hvalue <;> omega

/-- `DAA` after a subtraction with borrow-in `c` of the decimal numbers `m` and `n`, two digits each: `H` is the decimal
borrow of the low digits, `Cf` the one of the whole difference. -/
theorem daa8_sub8_decimal {a x : Byte} {m n : Nat} (c : Bool) (hm : m < 100) (hn : n < 100)
    (ha : a.toNat = 16 * (m / 10) + m % 10) (hx : x.toNat = 16 * (n / 10) + n % 10) :
    (daa8 (sub8 a x c).1 (sub8 a x c).2).1.toNat =
        16 * ((m + 200 - n - c.toNat) % 100 / 10) + (m + 200 - n - c.toNat) % 10 ∧
      (daa8 (sub8 a x c).1 (sub8 a x c).2).2.c = decide (m < n + c.toNat) := by
  have hc := c.toNat_le
  have hlow : (sub8 a x c).2.h = decide (m % 10 < n % 10 + c.toNat) := by
    rw [sub8, decide_eq_decide]
    omega
  have hhigh : (sub8 a x c).2.c = decide (m < n + c.toNat) := by
    rw [sub8, decide_eq_decide]
    omega
  refine ⟨?_, hhigh⟩
  have hvalue := daa8_toNat (sub8 a x c).1 (sub8 a x c).2
  rw [daaValue_eq, if_pos (show (sub8 a x c).2.n = true from rfl), hlow, hhigh, sub8_toNat] at hvalue
  simp only [decide_eq_true_eq] at hvalue
  split at hvalue <;> split at hvalue <;> omega

/-- `DAA` after an ALU operation is `daa8` of that operation's value and flags. -/
theorem exec_alu_then_daa {op : AluOp} {x : Byte} {f : Form} {s : State} (h : AluOperand op x f s) :
    ∃ t u, exec f.toInstr s = .next t ∧ exec .daa t = .next u ∧
      u.cpu.a = (daa8 (alu8 op s.cpu.a x s.cpu.cf).1 (alu8 op s.cpu.a x s.cpu.cf).2).1 ∧
      u.cpu.flags = (daa8 (alu8 op s.cpu.a x s.cpu.cf).1 (alu8 op s.cpu.a x s.cpu.cf).2).2 := by
  obtain ⟨t, ht, -, ha, hflags⟩ := exec_alu h
  obtain ⟨u, hu, -, hdaa⟩ := exec_daa t
  rw [ha, hflags] at hdaa
  exact ⟨t, u, ht, hu, hdaa⟩

/-- Settles O32: the rules `daa8_add8_decimal` and `daa8_sub8_decimal` on the immediate forms. -/
theorem daaDecimal : Obligations.DaaDecimal := by
  intro m n s hm hn ha
  have hx : (BitVec.ofNat 8 (16 * (n / 10) + n % 10)).toNat = 16 * (n / 10) + n % 10 := by
    rw [BitVec.toNat_ofNat]
    omega
  constructor
  · obtain ⟨t, u, ht, hu, hua, hflags⟩ := exec_alu_then_daa (op := .adc) (s := s) (.inr (.inl rfl))
    obtain ⟨hvalue, hcarry⟩ := daa8_add8_decimal s.cpu.cf hm hn ha hx
    exact ⟨t, u, ht, hu, (congrArg BitVec.toNat hua).trans hvalue, (congrArg Flags.c hflags).trans hcarry⟩
  · obtain ⟨t, u, ht, hu, hua, hflags⟩ := exec_alu_then_daa (op := .sbc) (s := s) (.inr (.inl rfl))
    obtain ⟨hvalue, hcarry⟩ := daa8_sub8_decimal s.cpu.cf hm hn ha hx
    exact ⟨t, u, ht, hu, (congrArg BitVec.toNat hua).trans hvalue, (congrArg Flags.c hflags).trans hcarry⟩

end Sys2Proof.Machine
end

section
/-! SUPPORT. 16-bit arithmetic (spec/43_alu16.md R260 to R262): `ADD HL,rr` writes `HL` and the flags, `INC rr` and
`DEC rr` write one pair and nothing else. -/

namespace Sys2Proof.Machine

/-- A write of one pair leaves the others. -/
theorem getPair_setPair_other {r q : Reg16} (h : q ≠ r) (v : Word) (s : State) :
    getPair q (setPair r v s) = getPair q s := by
  cases r <;> cases q <;> simp at h <;> rfl

theorem flags_setPair (r : Reg16) (v : Word) (s : State) : (setPair r v s).cpu.flags = s.cpu.flags := by
  cases r <;> rfl

theorem controlKept_setPair (r : Reg16) (v : Word) (s : State) : ControlKept s (setPair r v s) := by
  cases r <;> exact ⟨rfl, rfl, rfl, rfl, rfl⟩

theorem sameBeyondCpu_setPair (r : Reg16) (v : Word) (s : State) : SameBeyondCpu s (setPair r v s) := by
  cases r <;> rfl

/-- A form that writes one pair, adding `n` to it modulo `2^16`, and nothing else (R261, R262). -/
theorem exec_stepPair {f : Form} {r : Reg16} {step : Word} {n : Nat} {s : State}
    (h : runForm f s = .ok (setPair r (getPair r s + step) s)) (hstep : step.toNat = n) :
    ∃ t, exec f.toInstr s = .next t ∧ (getPair r t).toNat = ((getPair r s).toNat + n) % 65536 ∧
      (∀ q, q ≠ r → getPair q t = getPair q s) ∧ t.cpu.a = s.cpu.a ∧ t.cpu.pc = s.cpu.pc ∧
      t.cpu.flags = s.cpu.flags ∧ ControlKept s t ∧ SameBeyondCpu s t := by
  refine ⟨_, exec_next h, ?_, fun q hq => getPair_setPair_other hq _ s, by cases r <;> rfl, by cases r <;> rfl,
    flags_setPair r _ s, controlKept_setPair r _ s, sameBeyondCpu_setPair r _ s⟩
  rw [getPair_setPair_same, BitVec.toNat_add, hstep]

/-- `DEC rr` adds -1 (R262). -/
theorem decPair_eq (r : Reg16) (s : State) : decPair r s = .ok (setPair r (getPair r s + -1) s) := by
  rw [decPair, BitVec.sub_eq_add_neg]

theorem add16_toNat (a b : Word) (z : Bool) : (add16 a b z).1.toNat = (a.toNat + b.toNat) % 65536 :=
  BitVec.toNat_ofNat _ _

/-- `ADD HL,rr` leaves the value and the flags of `add16`, and all else as it was (R260). -/
theorem exec_addHl (r : Reg16) (s : State) :
    ∃ t, exec (Form.addHl r).toInstr s = .next t ∧ Frame [.h, .l] s t ∧
      hl t = (add16 (hl s) (getPair r s) s.cpu.zf).1 ∧ t.cpu.flags = (add16 (hl s) (getPair r s) s.cpu.zf).2 :=
  ⟨_, exec_next (f := .addHl r) rfl, (frame_setHl _ s).trans (frame_setFlags _ _ _), hl_setHl _ s, rfl⟩

/-- Settles O34: `ADD HL,rr` is `add16`; `INC rr` and `DEC rr` add 1 and -1, the latter 65535 modulo
`2^16`. -/
theorem pairArithmetic : Obligations.PairArithmetic := by
  intro r s
  refine ⟨row_of_encode (by cases r <;> rfl) fun _ => rfl, row_of_encode (by cases r <;> rfl) fun _ => rfl,
    row_of_encode (by cases r <;> rfl) fun _ => rfl, ?_, exec_stepPair (f := .incPair r) (step := 1) rfl rfl,
    exec_stepPair (f := .decPair r) (decPair_eq r s) rfl⟩
  obtain ⟨t, hexec, hframe, hhl, hflags⟩ := exec_addHl r s
  exact ⟨t, hexec, hframe, by rw [hhl, add16_toNat], hflags⟩

end Sys2Proof.Machine
end

section
/-! SUPPORT. Rotates, shifts and single bits (spec/44_rotate_shift_bit.md R270 to R296): a register form writes its
register, then the flags; a form at `HL` rewrites the byte through the bus; the result of each is given bit by bit. -/

namespace Sys2Proof.Machine

/-! ### Rotates and shifts -/

/-- The carry out does not depend on the carry in (R270). -/
theorem rotate8_carry (op : RotOp) (v : Byte) (c : Bool) : (rotate8 op v c).2 = rotatedOut op v := by
  cases op <;> rfl

theorem rotateFlags_rotate8 (op : RotOp) (v : Byte) (c : Bool) : rotateFlags (rotate8 op v c) =
    { z := (rotate8 op v c).1 == 0, n := false, h := false, c := rotatedOut op v } := by
  rw [rotateFlags, rotate8_carry]

theorem accRotateFlags_rotate8 (op : RotOp) (v : Byte) (c : Bool) :
    accRotateFlags (rotate8 op v c) = { z := false, n := false, h := false, c := rotatedOut op v } := by
  rw [accRotateFlags, rotate8_carry]

/-- A form that writes the result of a rotate to its own register, with some flags, gives that result bit by bit. -/
theorem exec_rotated {f : Form} {op : RotOp} {r : Reg8} {fl : Flags} {s : State}
    (h : runForm f s = .ok (setFlags fl (setReg r (rotate8 op (getReg r s) s.cpu.cf).1 s))) :
    ∃ t, exec f.toInstr s = .next t ∧ Frame [r] s t ∧ getReg r t = (rotate8 op (getReg r s) s.cpu.cf).1 ∧
      (∀ i, i < 8 → (getReg r t).getLsbD i = rotatedBit op (getReg r s) s.cpu.cf i) ∧ t.cpu.flags = fl := by
  obtain ⟨t, hexec, hframe, hr, hflags⟩ := exec_setReg_setFlags h
  exact ⟨t, hexec, hframe, hr, fun i hi => by rw [hr, rotate8_getLsbD op _ _ hi], hflags⟩

/-- The accumulator forms are `rotateAcc` of their operation (R271 to R274). -/
theorem runForm_rotateAcc {op : RotOp} {f : Form} {s : State}
    (h : f = .rlca ∧ op = .rlc ∨ f = .rrca ∧ op = .rrc ∨ f = .rla ∧ op = .rl ∨ f = .rra ∧ op = .rr) :
    runForm f s = rotateAcc op s := by
  obtain ⟨rfl, rfl⟩ | ⟨rfl, rfl⟩ | ⟨rfl, rfl⟩ | ⟨rfl, rfl⟩ := h <;> rfl

/-- Settles O35: both kinds of form write `rotate8` of their register and differ in `Z` alone. -/
theorem rotateRegister : Obligations.RotateRegister := by
  refine ⟨fun op r => row_of_encode (by cases op <;> cases r <;> rfl) fun _ => rfl, row_of_encode rfl fun _ => rfl,
    row_of_encode rfl fun _ => rfl, row_of_encode rfl fun _ => rfl, row_of_encode rfl fun _ => rfl,
    fun op r s => ?_, fun op f s hf => ?_⟩
  · obtain ⟨t, hexec, hframe, hr, hbits, hflags⟩ := exec_rotated (f := .rot op r) (s := s) rfl
    exact ⟨t, hexec, hframe, hbits, by rw [hflags, rotateFlags_rotate8, hr]⟩
  · obtain ⟨t, hexec, hframe, -, hbits, hflags⟩ := exec_rotated (r := .a) (runForm_rotateAcc (s := s) hf)
    exact ⟨t, hexec, hframe, hbits, hflags.trans (accRotateFlags_rotate8 op _ _)⟩

/-- Settles O36: the byte with the bits of `rotatedBit` is the one `rotate8` writes, and the bus write leaves the
processor alone. -/
theorem rotateMemory : Obligations.RotateMemory := by
  intro op s u v r hr hbits hw
  obtain rfl := eq_rotate8 hbits
  refine ⟨(exec_next (f := .rotAtHl op) (modifyAtHl_ok hr hw)).trans ?_,
    row_of_encode (by cases op <;> rfl) fun _ => rfl⟩
  rw [rotateFlags_rotate8, setFlags, writeByte_cpu hw]

/-! ### Single bits -/

/-- Settles O37: the flags of `bitFlags` are all that is written. -/
theorem bitTests : Obligations.BitTests := by
  intro n r s
  refine ⟨row_of_encode (by cases n <;> cases r <;> rfl) fun _ => rfl, row_of_encode (by cases n <;> rfl) fun _ => rfl,
    exec_next (f := .bit n r) rfl, fun v hv => exec_next (f := .bitAtHl n) ?_⟩
  show bitAtHl n s = _
  rw [bitAtHl, hv, bind_ok]
  rfl

theorem clearBit_getLsbD (v : Byte) (n : BitNo) {i : Nat} (hi : i < 8) :
    (clearBit v n).getLsbD i = (decide (i ≠ bitIndex n) && v.getLsbD i) := by
  have hmask : (1#8 <<< bitIndex n).getLsbD i = decide (i = bitIndex n) := getLsbD_bitAt true _ hi
  rw [clearBit, BitVec.getLsbD_and, BitVec.getLsbD_not, hmask, decide_eq_true hi, Bool.true_and, decide_not,
    Bool.and_comm]

theorem setBit_getLsbD (v : Byte) (n : BitNo) {i : Nat} (hi : i < 8) :
    (setBit v n).getLsbD i = (decide (i = bitIndex n) || v.getLsbD i) := by
  have hmask : (1#8 <<< bitIndex n).getLsbD i = decide (i = bitIndex n) := getLsbD_bitAt true _ hi
  rw [setBit, BitVec.getLsbD_or, hmask, Bool.or_comm]

/-- A form that writes to its register a byte given bit by bit, and nothing else. -/
theorem exec_setReg_bits {f : Form} {r : Reg8} {v : Byte} {s : State} {p : Nat → Bool}
    (h : runForm f s = .ok (setReg r v s)) (hbits : ∀ i, i < 8 → v.getLsbD i = p i) :
    ∃ t, exec f.toInstr s = .next t ∧ Frame [r] s t ∧ t.cpu.flags = s.cpu.flags ∧
      ∀ i, i < 8 → (getReg r t).getLsbD i = p i := by
  obtain ⟨t, hexec, hr, hframe, hflags⟩ := exec_setReg h
  exact ⟨t, hexec, hframe, hflags, hr ▸ hbits⟩

/-- A form that rewrites the byte at `HL`, the new byte given bit by bit, is the bus write of that byte. -/
theorem exec_rewriteAtHl_bits {f : Form} {g : Byte → Byte} {v w : Byte} {s u : State}
    (hf : runForm f s = rewriteAtHl g s) (hr : readByte s (hl s) = .ok v) (hw : writeByte s (hl s) w = .ok u)
    (hbits : ∀ i, i < 8 → w.getLsbD i = (g v).getLsbD i) : exec f.toInstr s = .next u ∧ u.cpu = s.cpu := by
  obtain rfl : w = g v := BitVec.eq_of_getLsbD_eq hbits
  have hrun : rewriteAtHl g s = .ok u := by rw [rewriteAtHl, hr, bind_ok, hw]
  exact ⟨exec_next (hf.trans hrun), writeByte_cpu hw⟩

/-- Settles O38: the forms write `clearBit` or `setBit`, which change bit `n` alone. -/
theorem resetAndSetBits : Obligations.ResetAndSetBits := by
  intro n r s
  refine ⟨row_of_encode (by cases n <;> cases r <;> rfl) fun _ => rfl, row_of_encode (by cases n <;> rfl) fun _ => rfl,
    row_of_encode (by cases n <;> cases r <;> rfl) fun _ => rfl, row_of_encode (by cases n <;> rfl) fun _ => rfl,
    exec_setReg_bits (f := .res n r) rfl fun i hi => clearBit_getLsbD _ n hi,
    exec_setReg_bits (f := .set n r) rfl fun i hi => setBit_getLsbD _ n hi,
    fun v w u hr hw => ⟨fun hbits => ?_, fun hbits => ?_⟩⟩
  · exact exec_rewriteAtHl_bits (f := .resAtHl n) rfl hr hw fun i hi =>
      (hbits i hi).trans (clearBit_getLsbD v n hi).symm
  · exact exec_rewriteAtHl_bits (f := .setAtHl n) rfl hr hw fun i hi =>
      (hbits i hi).trans (setBit_getLsbD v n hi).symm

end Sys2Proof.Machine
end

section
/-! SUPPORT. Jumps, calls and returns (spec/45_control_flow.md R300 to R311): the cost of a conditional row by its
condition, what a condition that fails does, and the address a relative jump reaches. -/

namespace Sys2Proof.Machine

/-! ### Conditional rows -/

/-- A conditional row is taken exactly when its condition holds, and costs accordingly (R300, R570). -/
theorem condRow_of_encode {cc : Cond} {f : Form} {bytes : List Nat} {m n : Nat}
    (henc : encode f.toInstr = bytes.map (BitVec.ofNat 8)) (hcond : conditionOf f.toInstr = some cc)
    (hcost : ∀ taken, formCycles taken f = if taken then m else n) : CondRow cc f bytes m n := by
  refine ⟨henc, fun s hs => ?_⟩
  have htaken : taken f.toInstr s = condHolds cc s.cpu.zf s.cpu.cf := by
    rw [taken, hcond]
    exact condition_eq cc s
  rw [cost_standard hs, form_toInstr, hcost, htaken]

theorem condRow_byteOperand {cc : Cond} {f : Form} {op m n : Nat} {b : Byte}
    (henc : encode f.toInstr = [BitVec.ofNat 8 op, b]) (hcond : conditionOf f.toInstr = some cc)
    (hcost : ∀ taken, formCycles taken f = if taken then m else n) : CondRow cc f [op, b.toNat] m n := by
  refine condRow_of_encode (henc.trans ?_) hcond hcost
  simp only [List.map_cons, List.map_nil, BitVec.ofNat_toNat, BitVec.setWidth_eq]

/-- A 16-bit operand is encoded low byte first (R121). -/
theorem condRow_wordOperand {cc : Cond} {f : Form} {op m n : Nat} {w : Word}
    (henc : encode f.toInstr = [BitVec.ofNat 8 op, loByte w, hiByte w]) (hcond : conditionOf f.toInstr = some cc)
    (hcost : ∀ taken, formCycles taken f = if taken then m else n) :
    CondRow cc f [op, w.toNat % 256, w.toNat / 256] m n := by
  refine condRow_of_encode (henc.trans ?_) hcond hcost
  simp only [List.map_cons, List.map_nil, ← loByte_toNat, ← hiByte_toNat, BitVec.ofNat_toNat, BitVec.setWidth_eq]

/-- A conditional instruction whose condition fails does nothing (R302, R305, R307, R311). -/
theorem onCondition_fails {cc : Cond} {s : State} (h : condHolds cc s.cpu.zf s.cpu.cf = false)
    (f : State → Except Fault State) : onCondition cc f s = .ok s :=
  if_neg (by rw [condition_eq, h]; exact Bool.false_ne_true)

/-! ### Jumps -/

/-- The target of a relative jump in exact arithmetic (R304, with the sign extension of R12). -/
theorem relativeTarget_toNat (e : Byte) (s : State) : ((relativeTarget e s).toNat : Int) =
    ((s.cpu.pc.toNat : Int) + if e.toNat < 128 then (e.toNat : Int) else (e.toNat : Int) - 256) % 65536 := by
  have hsext : ((sext16 e).toNat : Int) = e.toInt % 65536 := ofInt16_toNat e.toInt
  rw [relativeTarget, BitVec.toNat_add, ← toInt_byte]
  omega

/-- Settles O39: every jump is `setPc` of its target, a conditional one under `onCondition`. -/
theorem jumps : Obligations.Jumps := by
  intro addr e cc s
  refine ⟨row_wordOperand rfl fun _ => rfl, row_of_encode rfl fun _ => rfl, row_byteOperand rfl fun _ => rfl,
    condRow_wordOperand (by cases cc <;> rfl) (by cases cc <;> rfl) fun _ => rfl,
    condRow_byteOperand (by cases cc <;> rfl) (by cases cc <;> rfl) fun _ => rfl,
    exec_next (f := .jp addr) rfl, exec_next (f := .jpHl) rfl, fun h => ?_, fun h => ⟨?_, ?_⟩,
    setPc (relativeTarget e s) s, rfl, relativeTarget_toNat e s, exec_next (f := .jr e) rfl, fun h => ?_⟩
  · exact exec_next (f := .jpIf cc addr) (onCondition_holds h _)
  · exact exec_next (f := .jpIf cc addr) (onCondition_fails h _)
  · exact exec_next (f := .jrIf cc e) (onCondition_fails h _)
  · exact exec_next (f := .jrIf cc e) (onCondition_holds h _)

/-! ### Calls -/

/-- Restart number `ttt` of the encoding (R310). -/
theorem rst_row (t : RstTarget) :
    ∃ n, n < 8 ∧ Row (.rst t) [0xC7 + 8 * n] 16 ∧ (restartAddress t).toNat = 8 * n :=
  ⟨(restartAddress t).toNat / 8, by cases t <;> decide, row_of_encode (by cases t <;> rfl) fun _ => rfl,
    by cases t <;> rfl⟩

/-- Settles O40: a taken call is `push16` of the address after it, then `setPc`; of the processor the push changes
`SP` alone. -/
theorem calls : Obligations.Calls := by
  refine ⟨fun f target s s1 s2 hf h1 h2 => ?_, fun cc addr s h => ?_, rst_row, fun cc addr =>
    ⟨row_wordOperand rfl fun _ => rfl,
      condRow_wordOperand (by cases cc <;> rfl) (by cases cc <;> rfl) fun _ => rfl⟩⟩
  · obtain ⟨hpush, hcpu⟩ := push16_ok h1 h2
    have hrun : runForm f s = .ok (setPc target s2) := runForm_stack (.inr ⟨hf, rfl⟩) hpush (by rw [hcpu])
    rw [exec_next hrun, setPc, hcpu]
  · exact exec_next (f := .callIf cc addr) (onCondition_fails h _)

/-! ### Returns -/

/-- A return is a pop into `PC` (R308). -/
theorem ret_ok {lo hi : Byte} {s : State} (hlo : readByte s s.cpu.sp = .ok lo)
    (hhi : readByte s (s.cpu.sp + 1) = .ok hi) :
    ret s = .ok { s with cpu := { s.cpu with pc := word hi lo, sp := s.cpu.sp + 2 } } := by
  rw [ret, pop16_ok hlo hhi, bind_ok]
  rfl

/-- Settles O41: both forms are `ret`, the conditional one under `onCondition`. -/
theorem returns : Obligations.Returns := by
  intro cc s
  refine ⟨row_of_encode rfl fun _ => rfl, condRow_of_encode (by cases cc <;> rfl) (by cases cc <;> rfl) fun _ => rfl,
    fun lo hi hlo hhi => ⟨?_, fun h => ?_⟩, fun h => ?_⟩
  · exact exec_next (f := .ret) (ret_ok hlo hhi)
  · exact exec_next (f := .retIf cc) ((onCondition_holds h ret).trans (ret_ok hlo hhi))
  · exact exec_next (f := .retIf cc) (onCondition_fails h ret)

/-- The return from an interrupt is the pop into `PC`, then the enable that `RETI_DELAY` selects (R309). -/
theorem returnFromInterrupt_ok {lo hi : Byte} {s : State} (hlo : readByte s s.cpu.sp = .ok lo)
    (hhi : readByte s (s.cpu.sp + 1) = .ok hi) :
    returnFromInterrupt s = .ok (if s.params.retiDelay
      then enableLater { s with cpu := { s.cpu with pc := word hi lo, sp := s.cpu.sp + 2 } }
      else { s with cpu := { s.cpu with pc := word hi lo, sp := s.cpu.sp + 2, ime := true, imePending := 0 } }) := by
  rw [returnFromInterrupt, pop16_ok hlo hhi, bind_ok]
  rfl

/-- Settles O42: with the delay, the enable after the pop is the one of `EI`. -/
theorem retiReturnsFromInterrupt : Obligations.ReturnFromInterrupt := by
  intro s lo hi hlo hhi p
  have hrun := returnFromInterrupt_ok hlo hhi
  refine ⟨row_of_encode rfl fun _ => rfl, fun h => ?_, fun h => ?_⟩
  · rw [h] at hrun
    exact exec_next (f := .reti) hrun
  · rw [h] at hrun
    exact exec_next (f := .reti) hrun

end Sys2Proof.Machine
end

section
/-! SUPPORT. The system instructions (spec/46_system.md R320 to R324) and the pending enable (spec/60_exceptions.md
R343): each meaning case by case, and the step that runs the speed switch. -/

namespace Sys2Proof.Machine

/-! ### The delayed enable -/

theorem enableLater_idle {s : State} (hi : s.cpu.ime = false) (hp : s.cpu.imePending = 0) :
    enableLater s = { s with cpu := { s.cpu with imePending := 2 } } :=
  if_pos ⟨hp, hi⟩

theorem enableLater_busy {s : State} (h : s.cpu.ime = true ∨ s.cpu.imePending ≠ 0) : enableLater s = s := by
  refine if_neg fun ⟨hp, hi⟩ => ?_
  obtain h | h := h
  · rw [hi] at h
    cases h
  · exact h hp

theorem updateIme_pendingTwo {s : State} (h : s.cpu.imePending = 2) :
    updateIme s = { s with cpu := { s.cpu with imePending := 1 } } := by
  rw [updateIme, h, show ((2 : Fin 3) == 1) = false from rfl, Bool.or_false]
  rfl

theorem updateIme_pendingOne {s : State} (h : s.cpu.imePending = 1) :
    updateIme s = { s with cpu := { s.cpu with ime := true, imePending := 0 } } := by
  rw [updateIme, h, show ((1 : Fin 3) == 1) = true from rfl, Bool.or_true]
  rfl

theorem updateIme_pendingZero {s : State} (h : s.cpu.imePending = 0) : updateIme s = s := by
  rw [updateIme, h, show ((0 : Fin 3) == 1) = false from rfl, Bool.or_false, if_neg (by decide), ← h]

/-- Settles O10: `EI` is `enableLater`, and the counter is followed through `updateIme` value by value. -/
theorem enableDelay : Obligations.EnableDelay := by
  intro s
  exact ⟨row_of_encode rfl fun _ => rfl, row_of_encode rfl fun _ => rfl, row_of_encode rfl fun _ => rfl,
    fun hi hp => exec_next (f := .ei) (congrArg Except.ok (enableLater_idle hi hp)),
    fun h => exec_next (f := .ei) (congrArg Except.ok (enableLater_busy h)),
    updateIme_pendingTwo, updateIme_pendingOne, updateIme_pendingZero, exec_next (f := .di) rfl,
    exec_next (f := .nop) rfl⟩

/-! ### HALT and STOP -/

/-- With nothing enabled pending, `HALT` halts, whatever `IME` (R321). -/
theorem halt_nothingPending {s : State} (h : pending s = 0) :
    halt s = .ok { s with cpu := { s.cpu with runState := .halted } } :=
  congrArg Except.ok (if_pos h)

theorem halt_repeatByte {s : State} (h : pending s ≠ 0) (hp : s.params.haltPending = .repeatByte) :
    halt s = .ok { s with cpu := { s.cpu with haltRepeat := true } } := by
  rw [halt, if_neg h, hp]

theorem halt_fallthrough {s : State} (h : pending s ≠ 0) (hp : s.params.haltPending = .fallthrough) :
    halt s = .ok s := by
  rw [halt, if_neg h, hp]

theorem stop_reserved {second : Byte} (s : State) (h : second ≠ 0x00#8) :
    stop second s = .error (.reservedStopOperand second) :=
  if_pos h

/-- At an armed switch in color mode, `STOP` toggles the speed and disarms (R322). -/
theorem stop_armed {s : State} (hc : s.cart.colorMode = true) (ha : s.key1Armed = true) :
    stop 0x00#8 s = .ok { s with key1Armed := false, cpu := { s.cpu with speedShift := !s.cpu.speedShift } } := by
  rw [stop, if_neg (by decide), if_pos (by rw [hc, ha]; rfl)]

theorem exec_stop_armed {s : State} (hc : s.cart.colorMode = true) (ha : s.key1Armed = true) :
    exec (.stop 0x00#8) s =
      .next { s with key1Armed := false, cpu := { s.cpu with speedShift := !s.cpu.speedShift } } :=
  exec_next (f := .stop 0x00#8) (stop_armed hc ha)

theorem stop_unarmed {s : State} (h : s.cart.colorMode = false ∨ s.key1Armed = false) :
    stop 0x00#8 s = .ok { s with cpu := { s.cpu with runState := .stopped } } := by
  rw [stop, if_neg (by decide), if_neg (by rw [Bool.and_eq_true]; rintro ⟨hc, ha⟩; simp [hc, ha] at h)]

/-! ### The Tick of the speed switch -/

/-- `Tick` is the picture generator's advance, then the sound generator, `DIV`, the timer and the serial port (R342). -/
theorem tick_ok {n : Nat} {u p : State} (h : ppuAdvance (generatorCycles n u) u = .ok p) :
    tick n u = .ok (serialAdvance n (timerAdvance n (divAdvance n
      { p with apu := p.apu.advance (generatorCycles n u) }))) := by
  rw [tick, h, bind_ok]
  rfl

/-- Between a `STOP` at an armed switch and its `Tick`, the program counter is past the two bytes, the new speed is
in force and the switch is disarmed (R322). -/
def switchedSpeed (s : State) : State :=
  { updateIme s with key1Armed := false, cpu := { (updateIme s).cpu with
    pc := s.cpu.pc + 2, speedShift := !s.cpu.speedShift } }

/-- The speed switch takes effect for the `Tick` of its own step (R322): the generators see 4 cycles when the old speed
was double. -/
theorem generatorCycles_switchedSpeed (s : State) :
    generatorCycles 4 (switchedSpeed s) = if s.cpu.speedShift then 4 else 2 := by
  show (if (!s.cpu.speedShift) = true then 2 else 4) = _
  cases s.cpu.speedShift <;> rfl

/-- The fetch of an instruction with one operand byte, without `halt_repeat` (R341 items 4 and 5). -/
theorem fetchInstr_byteOperand {s : State} {op b : Byte} (hn : Decode.operandCount op = 1)
    (hr : s.cpu.haltRepeat = false) (h0 : readByte s s.cpu.pc = .ok op) (h1 : readByte s (s.cpu.pc + 1) = .ok b) :
    fetchInstr s = .ok (instrOf op b 0, setPc (s.cpu.pc + 2) s) := by
  have hoperand : fetch8 (setPc (s.cpu.pc + 1) s) = .ok (b, setPc (s.cpu.pc + 1 + 1) s) :=
    fetch8_ok (by rw [readByte_setPc]; exact h1)
  have hpc : s.cpu.pc + 1 + 1 = s.cpu.pc + 2 := BitVec.add_assoc _ _ _
  rw [hpc] at hoperand
  simp only [fetchInstr, fetchOpcode_advance h0 hr, hn, fetchOperands, hoperand, bind_ok]
  rfl

/-- A step at an armed switch runs `STOP` and passes its 4 cycles to `Tick` in the switched state (R322, R341). -/
theorem step_switch {s : State} (hc : s.cart.colorMode = true) (ha : s.key1Armed = true)
    (hcyc : s.params.cycles = .standard) (hf : s.fault = none) (hr : s.cpu.runState = .running)
    (hh : s.cpu.haltRepeat = false) (hd : dueInterrupt (updateIme s) = none)
    (h0 : readByte s s.cpu.pc = .ok 0x10) (h1 : readByte s (s.cpu.pc + 1) = .ok 0x00) :
    step s = thenTick 4 (.next (switchedSpeed s)) := by
  have hwake : wake (updateIme s) = updateIme s := by
    rw [wake, ← hr]
    rfl
  have hfetch : fetchInstr (updateIme s) = .ok (.stop 0x00#8, setPc (s.cpu.pc + 2) (updateIme s)) :=
    fetchInstr_byteOperand (op := 0x10) rfl hh ((readWith_cpu rfl _).trans h0) ((readWith_cpu rfl _).trans h1)
  have hcost : cost (.stop 0x00#8) (setPc (s.cpu.pc + 2) (updateIme s)) = 4 :=
    cost_standard (s := setPc (s.cpu.pc + 2) (updateIme s)) hcyc (.stop 0x00#8)
  have hexec : exec (.stop 0x00#8) (setPc (s.cpu.pc + 2) (updateIme s)) = .next (switchedSpeed s) :=
    exec_stop_armed hc ha
  rw [step_awake hf (by rw [hr]; decide), awake_instruction hd (idling_running hr), hwake, instructionStep, hfetch]
  show thenTick (cost (.stop 0x00#8) _) (exec (.stop 0x00#8) _) = _
  rw [hcost, hexec]

/-- Settles O12: the meanings case by case, and `Tick` after the switch with the generators' cycles of the new speed. -/
theorem haltAndStop : Obligations.HaltAndStop := by
  intro s
  refine ⟨row_of_encode rfl fun _ => rfl, row_of_encode rfl fun _ => rfl,
    fun h => exec_next (f := .halt) (halt_nothingPending h),
    fun h => ⟨fun hp => exec_next (f := .halt) (halt_repeatByte h hp),
      fun hp => exec_next (f := .halt) (halt_fallthrough h hp)⟩,
    fun second h => exec_fault (f := .stop second) (stop_reserved s h), exec_stop_armed,
    fun h => exec_next (f := .stop 0x00#8) (stop_unarmed h), fun hc ha hcyc hf hr hh hd h0 h1 => ?_⟩
  rw [step_switch hc ha hcyc hf hr hh hd h0 h1, ← generatorCycles_switchedSpeed s]
  refine ⟨fun p hp => ?_, fun e he => thenTick_error (bind_of_error he _)⟩
  have htick := tick_ok (u := switchedSpeed s) hp
  rw [thenTick_ok htick, tick_clock htick]
  rfl

end Sys2Proof.Machine
end

section
/-! SUPPORT. The scanline engine along a step (spec/61_ppu.md R402, R409, R412, R413). -/

namespace Sys2Proof.Machine

/-- Settles O49: the scanline engine lies beyond the processor, and bus writes and `Tick` keep its relation. -/
theorem stepKeepsScanline : Obligations.StepKeepsScanline := fun _ _ hi h =>
  kept_step_device (fun _ _ _ _ _ hp => hp) (fun _ _ _ _ => ppuInv_write) (fun _ _ _ => ppuInv_tick) h hi

end Sys2Proof.Machine
end

section
/-! SUPPORT. The bounds of the standard costs (spec/70_reset_and_hazards.md R570). -/

namespace Sys2Proof.Machine

/-- A standard cost: a multiple of 4 between 4 and 24. -/
def standardCost (n : Nat) : Bool := n % 4 == 0 && decide (4 ≤ n) && decide (n ≤ 24)

theorem standardCost_iff {n : Nat} : standardCost n = true ↔ n % 4 = 0 ∧ 4 ≤ n ∧ n ≤ 24 := by
  simp only [standardCost, Bool.and_eq_true, beq_iff_eq, decide_eq_true_eq, and_assoc]

theorem standardCost_secondCost (op2 : Byte) : standardCost (secondCost op2) = true := by
  unfold secondCost
  split
  · split <;> rfl
  · rfl

/-- The cost of every form: a number, a number for each outcome of its condition, or that of the second byte. -/
theorem standardCost_formCycles (t : Bool) (f : Form) : standardCost (formCycles t f) = true := by
  cases f with
  | prefixCb op2 => exact standardCost_secondCost op2
  | jpIf | jrIf | callIf | retIf => simp only [formCycles]; cases t <;> rfl
  | _ => simp only [formCycles]; rfl

/-- Settles O45: the standard cost of an instruction is that of its form. -/
theorem costsAreMultiplesOfFour : Obligations.CostsAreMultiplesOfFour := by
  intro i s hs
  rw [cost_standard hs]
  exact standardCost_iff.mp (standardCost_formCycles (taken i s) i.form)

end Sys2Proof.Machine
end

section
/-! SUPPORT. The interrupt check and what taking an interrupt leaves (spec/60_exceptions.md R346 to R349). -/

namespace Sys2Proof.Machine

/-- A source in `IF` and `IE` is found at its own bit only (R34). -/
theorem mask_getLsbD (n m : Source) : n.mask.getLsbD m.number = (m == n) := by
  cases n <;> cases m <;> rfl

theorem vector_toNat (n : Source) : n.vector.toNat = 0x40 + 8 * n.number := by
  cases n <;> rfl

/-- Some source is found in a pending set that is not empty, and it is the first one in it (R346). -/
theorem firstPending_least {p : BitVec 5} (h : p ≠ 0) :
    ∃ n, firstPending p = some n ∧ p.getLsbD n.number = true ∧
      ∀ m : Source, m.number < n.number → p.getLsbD m.number = false := by
  unfold firstPending
  split_ifs with h0 h1 h2 h3 h4
  case neg =>
    have hbits : ∀ i < 5, p.getLsbD i = false := by
      intro i hi
      interval_cases i <;> exact Bool.eq_false_iff.mpr ‹_›
    exact absurd (BitVec.eq_of_getLsbD_eq fun i hi => (hbits i hi).trans BitVec.getLsbD_zero.symm) h
  all_goals
    refine ⟨_, rfl, ‹_›, fun m hm => ?_⟩
    cases m <;> simp_all [Source.number]

theorem dueInterrupt_enabled {s : State} (h : s.cpu.ime = true) : dueInterrupt s = firstPending (pending s) := if_pos h

theorem awake_interrupt {s : State} {n : Source} (h : dueInterrupt s = some n) :
    awakeStep s = thenTick 20 (.ofExcept (takeInterrupt n s)) := by
  rw [awakeStep, h]

/-- Settles O6: the first pending source is due, and the step is its taking and then `Tick(20)`. -/
theorem stepDispatches : Obligations.StepDispatches := by
  intro s hf hr hime hp
  obtain ⟨n, hfirst, hbit, hleast⟩ := firstPending_least hp
  have hdue : dueInterrupt (updateIme s) = some n := (dueInterrupt_enabled hime).trans hfirst
  have hstep : step s = thenTick 20 (.ofExcept (takeInterrupt n (updateIme s))) := by
    rw [step_awake hf hr, awake_interrupt hdue]
  rw [hstep]
  refine ⟨n, hbit, hleast, vector_toNat n, fun t t' ht ht' => ?_, fun f ht => ?_, fun t f ht ht' => ?_⟩
  · rw [ht, ofExcept_ok, thenTick_ok ht']
  · rw [ht]; rfl
  · rw [ht, ofExcept_ok, thenTick_error ht']

/-- Before the push of R347: the request is taken, interrupts are disabled and a halted processor runs. -/
def acknowledge (n : Source) (s : State) : State :=
  { s with
    ifReg := s.ifReg &&& ~~~n.mask
    cpu := { s.cpu with ime := false, haltRepeat := false,
                        runState := if s.cpu.runState = .halted then .running else s.cpu.runState } }

theorem takeInterrupt_eq (n : Source) (s : State) :
    takeInterrupt n s = (do let t ← push16 s.cpu.pc (acknowledge n s); .ok (setPc n.vector t)) := rfl

theorem memoryInv_acknowledge {s : State} (n : Source) (h : MemoryInv s) : MemoryInv (acknowledge n s) := h

/-- Taking a request clears its bit alone (R347). -/
theorem acknowledge_ifReg_getLsbD (n m : Source) (s : State) :
    (acknowledge n s).ifReg.getLsbD m.number = (s.ifReg.getLsbD m.number && m != n) := by
  have hm : m.number < 5 := by cases m <;> decide
  show (s.ifReg &&& ~~~n.mask).getLsbD m.number = _
  rw [BitVec.getLsbD_and, BitVec.getLsbD_not, mask_getLsbD, decide_eq_true hm, Bool.true_and]
  rfl

/-- Before the push, every address but that of `IF` reads as it did. -/
theorem readByte_acknowledge (n : Source) (s : State) {b : Word} (hb : b ≠ 0xFF0F#16) :
    readByte (acknowledge n s) b = readByte s b :=
  calc readByte (acknowledge n s) b
    _ = readByte { s with cpu := (acknowledge n s).cpu } b := readByte_ifReg _ _ hb
    _ = readByte s b := readWith_cpu rfl b

/-- Taking an interrupt with the stack in plain storage: the acknowledgement, then the push, which touches the stores
only (`push16_plain`), then the vector. -/
theorem takeInterrupt_plain {n : Source} {s : State} {c1 c2 : Store × Nat} (hm : MemoryInv s)
    (h1 : plainCell s (s.cpu.sp - 1) = some c1) (h2 : plainCell s (s.cpu.sp - 2) = some c2) :
    ∃ t, takeInterrupt n s = .ok t ∧
      t.cpu = { (acknowledge n s).cpu with pc := n.vector, sp := s.cpu.sp - 2 } ∧
      OnlyStores { acknowledge n s with cpu := t.cpu } t ∧
      ∀ b, readByte t b = afterStore s c2 (loByte s.cpu.pc) b
        (afterStore s c1 (hiByte s.cpu.pc) b (readByte (acknowledge n s) b)) := by
  let u := acknowledge n s
  let w := storePlain c2 (loByte s.cpu.pc) (storePlain c1 (hiByte s.cpu.pc) u)
  have hpush : push16 s.cpu.pc u = .ok (setSp (s.cpu.sp - 2) w) := push16_plain (s := u) s.cpu.pc h1 h2
  have hstores : OnlyStores u w := (onlyStores_storePlain c1 _ u).trans (onlyStores_storePlain c2 _ _)
  have hcpu : w.cpu = u.cpu := by rw [hstores]
  refine ⟨setPc n.vector (setSp (s.cpu.sp - 2) w), ?_, ?_, ?_, fun b => ?_⟩
  · rw [takeInterrupt_eq, hpush, bind_ok]
  · simp only [setPc, setSp, hcpu]; rfl
  · unfold OnlyStores at hstores ⊢
    rw [hstores]; rfl
  · rw [readByte_setPc, readByte_setSp]
    exact readByte_storePlain_twice _ _ (memoryInv_acknowledge n hm) h1 h2 b

/-- Settles O7: `takeInterrupt_plain`, field by field. -/
theorem takeInterruptEffect : Obligations.TakeInterruptEffect := by
  intro n s c1 c2 hm h1 h2
  obtain ⟨t, ht, hcpu, hstores, hread⟩ := takeInterrupt_plain (n := n) hm h1 h2
  have hif : t.ifReg = (acknowledge n s).ifReg := by rw [hstores]
  refine ⟨t, ht, by rw [hcpu], by rw [hcpu], by rw [hcpu]; rfl, by rw [hcpu]; rfl, by rw [hcpu]; rfl, by rw [hcpu]; rfl,
    by rw [hcpu]; rfl, fun r _ => ?_, by rw [hcpu]; rfl, fun m => ?_, ?_, fun b hb => ?_⟩
  · unfold getReg
    rw [hcpu]; rfl
  · rw [hif]
    exact acknowledge_ifReg_getLsbD n m s
  · rw [hif]
    exact hstores
  · rw [hread, readByte_acknowledge n s hb]

end Sys2Proof.Machine
end

section
/-! SUPPORT. The serial port's bits in order, and advances cut in any way (spec/60_exceptions.md R375, R377). -/

namespace Sys2Proof.Machine

/-- Shifting in bits one group after another is shifting them in at once. -/
theorem serialShift_add (input : Nat → Bool) (j k : Nat) (p : Byte × Nat) :
    serialShift input k (serialShift input j p) = serialShift input (j + k) p := by
  induction j generalizing p with
  | zero => rw [Nat.zero_add]; rfl
  | succ j ih => rw [Nat.add_right_comm]; exact ih _

theorem serialShift_count (input : Nat → Bool) (k : Nat) (p : Byte × Nat) :
    (serialShift input k p).2 = p.2 + k := by
  induction k generalizing p with
  | zero => rfl
  | succ k ih => rw [serialShift, ih, Nat.add_assoc, Nat.add_comm 1]

/-- One bit shifted into a byte from below. -/
theorem getLsbD_shiftIn (v : Byte) (c : Bool) {i : Nat} (hi : i < 8) :
    ((v <<< 1) ||| (if c then 1 else 0)).getLsbD i = if i = 0 then c else v.getLsbD (i - 1) := by
  have hlow : (if c then 1#8 else 0#8).getLsbD i = (c && decide (i = 0)) := getLsbD_bitAt c 0 hi
  rw [BitVec.getLsbD_or, BitVec.getLsbD_shiftLeft, decide_eq_true hi, Bool.true_and]
  show (_ || (if c then 1#8 else 0#8).getLsbD i) = _
  rw [hlow]
  by_cases h0 : i = 0
  · simp [h0]
  · have h1 : ¬ i < 1 := by omega
    simp [h0, h1]

/-- After `k` shifts, the low bits of `SB` are the `k` newest of the input, the last one lowest, and above them stands
what `SB` held before. -/
theorem serialShift_getLsbD (input : Nat → Bool) (k : Nat) (p : Byte × Nat) {i : Nat} (hi : i < 8) :
    (serialShift input k p).1.getLsbD i = if i < k then input (p.2 + (k - 1 - i)) else p.1.getLsbD (i - k) := by
  induction k generalizing p with
  | zero => rfl
  | succ k ih =>
    rw [serialShift, ih]
    obtain hlt | rfl | hgt := Nat.lt_trichotomy i k
    · rw [if_pos hlt, if_pos (Nat.lt_succ_of_lt hlt)]
      congr 1
      omega
    · rw [if_neg (Nat.lt_irrefl i), if_pos (Nat.lt_succ_self i), Nat.sub_self, getLsbD_shiftIn _ _ (by decide), if_pos rfl]
      congr 1
      omega
    · have hne : i - k ≠ 0 := by omega
      rw [if_neg (Nat.lt_asymm hgt), if_neg (show ¬ i < k + 1 by omega), getLsbD_shiftIn _ _ (by omega), if_neg hne]
      congr 1

/-- The bits shifted in while the counter of a transfer runs from `timer` down to `left` (R375). -/
def bitsDue (period timer left : Nat) : Nat := (8 * period - left) / period - (8 * period - timer) / period

theorem bitsDue_add {period a b c : Nat} (hb : b ≤ a) (ha : a ≤ c) :
    bitsDue period c a + bitsDue period a b = bitsDue period c b := by
  have h1 : (8 * period - c) / period ≤ (8 * period - a) / period := Nat.div_le_div_right (by omega)
  have h2 : (8 * period - a) / period ≤ (8 * period - b) / period := Nat.div_le_div_right (by omega)
  unfold bitsDue
  omega

theorem bitsDue_whole {period : Nat} (h : 0 < period) : bitsDue period (8 * period) 0 = 8 := by
  unfold bitsDue
  rw [Nat.sub_self, Nat.zero_div, Nat.sub_zero, Nat.sub_zero, Nat.mul_div_cancel _ h]

/-- A transfer run down to the count `left`, the bits due until then shifted in (R375). -/
def shiftedIn (left : Nat) (s : State) : State :=
  let r := serialShift (serialInBit s) (bitsDue s.serial.period s.serial.timer left) (s.serial.sb, s.serial.bitsIn)
  { s with serial := { s.serial with timer := left, sb := r.1, bitsIn := r.2 } }

/-- The end of a transfer: the last bits are in, `SC[7]` is cleared and the interrupt is requested (R375). -/
def transferDone (s : State) : State :=
  request .serial { shiftedIn 0 s with serial := { (shiftedIn 0 s).serial with scStart := false } }

theorem serialAdvance_idle {s : State} (h : s.serial.timer = 0) (n : Nat) : serialAdvance n s = s :=
  if_neg (by omega)

theorem serialAdvance_running {s : State} {n : Nat} (h : n < s.serial.timer) :
    serialAdvance n s = shiftedIn (s.serial.timer - n) s :=
  (if_pos (by omega)).trans (if_neg (by omega))

theorem serialAdvance_done {s : State} {n : Nat} (h : 0 < s.serial.timer) (hn : s.serial.timer ≤ n) :
    serialAdvance n s = transferDone s := by
  have h0 : s.serial.timer - n = 0 := by omega
  unfold serialAdvance
  simp only [h0, if_pos h]
  rfl

/-- A transfer can stop on its way: the bits due until `a` and then until `b` are those due until `b`. -/
theorem shiftedIn_shiftedIn {s : State} {a b : Nat} (hb : b ≤ a) (ha : a ≤ s.serial.timer) :
    shiftedIn b (shiftedIn a s) = shiftedIn b s := by
  have hbits := serialShift_add (serialInBit s) (bitsDue s.serial.period s.serial.timer a)
    (bitsDue s.serial.period a b) (s.serial.sb, s.serial.bitsIn)
  rw [bitsDue_add hb ha] at hbits
  conv_rhs => rw [shiftedIn, ← hbits]
  rfl

/-- Advances add up: an idle port stays idle, a transfer that ends in the first one is idle in the second. -/
theorem serialAdvance_add (s : State) (m n : Nat) : serialAdvance n (serialAdvance m s) = serialAdvance (m + n) s := by
  by_cases h0 : s.serial.timer = 0
  · rw [serialAdvance_idle h0, serialAdvance_idle h0, serialAdvance_idle h0]
  have hpos : 0 < s.serial.timer := Nat.pos_of_ne_zero h0
  by_cases hm : s.serial.timer ≤ m
  · rw [serialAdvance_done hpos hm, serialAdvance_done hpos (by omega)]
    exact serialAdvance_idle rfl n
  have htimer : (shiftedIn (s.serial.timer - m) s).serial.timer = s.serial.timer - m := rfl
  rw [serialAdvance_running (Nat.lt_of_not_le hm)]
  by_cases hmn : m + n < s.serial.timer
  · rw [serialAdvance_running (by omega), serialAdvance_running hmn, htimer, Nat.sub_sub]
    exact shiftedIn_shiftedIn (by omega) (by omega)
  · rw [serialAdvance_done (s := shiftedIn _ _) (by omega) (by omega), serialAdvance_done hpos (by omega)]
    unfold transferDone
    rw [shiftedIn_shiftedIn (Nat.zero_le _) (by omega)]

/-- What a write of `SC` that starts a transfer with the internal clock leaves (R375). -/
theorem writeSc_start {v : Byte} (h7 : v.getLsbD 7 = true) (h0 : v.getLsbD 0 = true) (s : State) :
    (writeSc v s).serial.scStart = true ∧
      (writeSc v s).serial.period = (if s.cart.colorMode && v.getLsbD 1 then 16 else 512) ∧
      (writeSc v s).serial.timer = 8 * (writeSc v s).serial.period ∧
      (writeSc v s).serial.bitsIn = s.serial.bitsIn ∧
      (writeSc v s).ifReg = s.ifReg ∧ (writeSc v s).params = s.params := by
  have hv : (bit v 7 && bit v 0) = true := by rw [bit, bit, h7, h0]; rfl
  unfold writeSc
  rw [if_pos hv]
  exact ⟨rfl, rfl, rfl, rfl, rfl, rfl⟩

/-- A whole transfer: eight bits of the input, the first one highest (R375, R377). -/
theorem transferDone_whole {s : State} (hp : 0 < s.serial.period) (ht : s.serial.timer = 8 * s.serial.period) :
    (transferDone s).serial.bitsIn = s.serial.bitsIn + 8 ∧
      ∀ j, j < 8 → (transferDone s).serial.sb.getLsbD (7 - j) = serialInBit s (s.serial.bitsIn + j) := by
  have hdue : bitsDue s.serial.period s.serial.timer 0 = 8 := by rw [ht, bitsDue_whole hp]
  have hserial : (transferDone s).serial = { (shiftedIn 0 s).serial with scStart := false } := rfl
  rw [hserial, shiftedIn]
  simp only [hdue]
  refine ⟨serialShift_count _ _ _, fun j hj => ?_⟩
  rw [serialShift_getLsbD _ _ _ (by omega), if_pos (by omega)]
  congr 1
  omega

/-- Settles O57: the additive advance, the running one, and the end of a whole transfer. -/
theorem serialTransfer : Obligations.SerialTransfer := by
  refine ⟨serialAdvance_add, fun s n hn => ?_, fun s t v h7 h0 ht => ?_⟩
  · rw [serialAdvance_running hn]
    exact ⟨rfl, rfl, rfl⟩
  obtain ⟨hstart, hperiod, htimer, hbits, hif, hparams⟩ := writeSc_start h7 h0 s
  have hpos : 0 < (writeSc v s).serial.period := by
    rw [hperiod]
    split <;> decide
  obtain ⟨hcount, hsb⟩ := transferDone_whole hpos htimer
  rw [serialAdvance_done (by omega) (by omega)] at ht
  rw [ht]
  refine ⟨hstart, hperiod, rfl, rfl, ?_, by rw [hcount, hbits], fun j hj => ?_⟩
  · show (writeSc v s).ifReg ||| _ = _
    rw [hif]; rfl
  · rw [hsb j hj, hbits]
    unfold serialInBit
    rw [hparams]

end Sys2Proof.Machine
end

section
/-! SUPPORT. The lines of the joypad and the events that change them (spec/60_exceptions.md R352, R380, R381). -/

namespace Sys2Proof.Machine

/-! ### The lines -/

theorem lines_getLsbD (j : Joypad) {k : Nat} (hk : k < 4) : j.lines.getLsbD k = !j.low k := by
  unfold Joypad.lines
  interval_cases k <;> cases j.low 0 <;> cases j.low 1 <;> cases j.low 2 <;> cases j.low 3 <;> rfl

/-- The low four bits of `P1` are the lines (R380). -/
theorem readP1_line (s : State) {k : Nat} (hk : k < 4) : (readIo .p1 s).getLsbD k = !s.joypad.low k := by
  rw [← lines_getLsbD s.joypad hk]
  exact (BitVec.getLsbD_append ..).trans (if_pos hk)

/-- The bits of `P1` above the lines: the two selects and two bits that read 1 (R380). -/
theorem readP1_high (s : State) :
    (readIo .p1 s).getLsbD 4 = s.joypad.p14 ∧ (readIo .p1 s).getLsbD 5 = s.joypad.p15 ∧
      (readIo .p1 s).getLsbD 6 = true ∧ (readIo .p1 s).getLsbD 7 = true := by
  unfold readIo
  simp only [BitVec.getLsbD_append]
  simp

theorem bitVec_ne_zero_iff {w : Nat} {x : BitVec w} : x ≠ 0 ↔ ∃ k, k < w ∧ x.getLsbD k = true := by
  refine ⟨fun h => ?_, ?_⟩
  · by_contra hbits
    exact h (BitVec.eq_of_getLsbD_eq fun i hi =>
      (Bool.eq_false_iff.mpr fun hb => hbits ⟨i, hi, hb⟩).trans BitVec.getLsbD_zero.symm)
  · rintro ⟨k, -, hk⟩ rfl
    exact absurd (BitVec.getLsbD_zero.symm.trans hk) Bool.false_ne_true

/-- A line fell exactly when one that was not low is low (R380). -/
theorem fell_iff (j j' : Joypad) : Joypad.fell j j' = true ↔ ∃ k, k < 4 ∧ j.low k = false ∧ j'.low k = true := by
  unfold Joypad.fell
  rw [bne_iff_ne, bitVec_ne_zero_iff]
  refine exists_congr fun k => and_congr_right fun hk => ?_
  rw [BitVec.getLsbD_and, BitVec.getLsbD_not, lines_getLsbD j hk, lines_getLsbD j' hk]
  cases j.low k <;> cases j'.low k <;> simp [hk]

/-- The same on what `P1` reads. -/
theorem fell_iff_readP1 (s t : State) : Joypad.fell s.joypad t.joypad = true ↔
    ∃ k, k < 4 ∧ (readIo .p1 s).getLsbD k = true ∧ (readIo .p1 t).getLsbD k = false := by
  rw [fell_iff]
  refine exists_congr fun k => and_congr_right fun hk => ?_
  rw [readP1_line s hk, readP1_line t hk, Bool.not_eq_true', Bool.not_eq_false']

/-! ### Events -/

theorem setJoypad_fell {s : State} {j : Joypad} (h : Joypad.fell s.joypad j = true) :
    setJoypad j s = { s with joypad := j, ifReg := s.ifReg ||| 0b10000#5 } := if_pos h

theorem setJoypad_still {s : State} {j : Joypad} (h : Joypad.fell s.joypad j = false) :
    setJoypad j s = { s with joypad := j } := if_neg (by rw [h]; decide)

theorem changeButtons_eq (b : Byte) (s : State) :
    changeButtons b s =
      let u := setJoypad { s.joypad with buttons := b } s
      if s.cpu.runState = .stopped ∧ Joypad.fell s.joypad { s.joypad with buttons := b } = true then
        { u with cpu := { s.cpu with runState := .running } }
      else u := by
  unfold changeButtons
  simp only [setJoypad_cpu]

theorem setJoypad_eq (j : Joypad) (s : State) :
    setJoypad j s = { s with joypad := j, ifReg := (setJoypad j s).ifReg } := by
  cases h : Joypad.fell s.joypad j with
  | true => rw [setJoypad_fell h]
  | false => rw [setJoypad_still h]

@[simp] theorem changeButtons_joypad (b : Byte) (s : State) :
    (changeButtons b s).joypad = { s.joypad with buttons := b } := by
  rw [changeButtons_eq]
  dsimp only
  split <;> exact setJoypad_joypad _ s

/-- A line that falls requests the interrupt and ends `Stopped` (R352, R380). -/
theorem changeButtons_fell {s : State} {b : Byte} (h : Joypad.fell s.joypad { s.joypad with buttons := b } = true) :
    changeButtons b s = { s with
      joypad := { s.joypad with buttons := b }
      ifReg := s.ifReg ||| 0b10000#5
      cpu := { s.cpu with runState := if s.cpu.runState = .stopped then .running else s.cpu.runState } } := by
  rw [changeButtons_eq, setJoypad_fell h]
  by_cases hr : s.cpu.runState = .stopped
  · rw [if_pos ⟨hr, h⟩, if_pos hr]
  · rw [if_neg fun hc => hr hc.1, if_neg hr]

theorem changeButtons_still {s : State} {b : Byte} (h : Joypad.fell s.joypad { s.joypad with buttons := b } = false) :
    changeButtons b s = { s with joypad := { s.joypad with buttons := b } } := by
  rw [changeButtons_eq, setJoypad_still h]
  exact if_neg fun hc => Bool.false_ne_true (h.symm.trans hc.2)

/-- Buttons let go pull no line low. -/
theorem fell_release (j : Joypad) (m : Byte) : Joypad.fell j { j with buttons := j.buttons &&& m } = false := by
  rw [Bool.eq_false_iff, ne_eq, fell_iff]
  rintro ⟨k, -, hhigh, hlow⟩
  simp only [Joypad.low, BitVec.getLsbD_and] at hhigh hlow
  grind

theorem fell_self (j : Joypad) : Joypad.fell j j = false := by
  rw [Bool.eq_false_iff, ne_eq, fell_iff]
  rintro ⟨k, -, hhigh, hlow⟩
  rw [hhigh] at hlow
  cases hlow

theorem changeButtons_same {s : State} {b : Byte} (h : b = s.joypad.buttons) : changeButtons b s = s := by
  subst h
  exact changeButtons_still (fell_self s.joypad)

/-- A button that is down is one bit of `buttons` (R380). -/
theorem or_mask_of_pressed (btn : Button) {b : Byte} (h : b &&& btn.mask ≠ 0) : b ||| btn.mask = b := by
  revert b
  cases btn <;> decide

theorem and_not_mask_of_released (btn : Button) {b : Byte} (h : b &&& btn.mask = 0) : b &&& ~~~btn.mask = b := by
  revert b
  cases btn <;> decide

theorem ioReg_p1 (color : Bool) : ioReg color 0 = some .p1 := by cases color <;> rfl

/-- Settles O58: a press, a release and a write of `P1` by whether a line fell. -/
theorem joypadLines : Obligations.JoypadLines := by
  intro s btn v line Falls down up
  have hfalls : ∀ t, Falls t ↔ Joypad.fell s.joypad t.joypad = true := fun t => (fell_iff_readP1 s t).symm
  have hdown : down.joypad = { s.joypad with buttons := s.joypad.buttons ||| btn.mask } := changeButtons_joypad _ s
  have hup : up.joypad = { s.joypad with buttons := s.joypad.buttons &&& ~~~btn.mask } := changeButtons_joypad _ s
  have hwrite : writeByte s 0xFF00#16 v = .ok (writeP1 v s) := writeByte_io v rfl (ioReg_p1 _)
  have hp1 : (writeP1 v s).joypad = { s.joypad with p15 := v.getLsbD 5, p14 := v.getLsbD 4 } := setJoypad_joypad _ s
  simp only [hfalls, Bool.not_eq_true]
  refine ⟨fun k hk => readP1_line s hk, readP1_high s, hdown, fun h => ?_, fun h => ?_,
    changeButtons_still (fell_release s.joypad _), ?_, fun h => changeButtons_same (or_mask_of_pressed btn h),
    fun h => changeButtons_same (and_not_mask_of_released btn h), writeP1 v s, hwrite, setJoypad_eq _ s,
    fun h => ?_, fun h => ?_⟩
  · rw [hdown] at h ⊢
    exact changeButtons_fell h
  · rw [hdown] at h ⊢
    exact changeButtons_still h
  · rw [hup]
    exact fell_release s.joypad _
  · rw [hp1] at h
    exact (congrArg State.ifReg (setJoypad_fell h) :)
  · rw [hp1] at h
    exact (congrArg State.ifReg (setJoypad_still h) :)

end Sys2Proof.Machine
end

section
/-! SUPPORT. The registers of the picture generator and the display's switch (spec/61_ppu.md R407 to R412). -/

namespace Sys2Proof.Machine

theorem writeByte_ioPlain {s : State} {a : Word} {n : Nat} {r : IoReg} (v : Byte) (ha : region a = .io n)
    (hr : ioReg s.cart.colorMode n = some r) (hdma : r ≠ .dma) (hhdma : r ≠ .hdma5) :
    writeByte s a v = .ok (writeIoPlain r v s) := by
  rw [writeByte_io v ha hr, writeIo, if_neg hdma, if_neg hhdma]

theorem ioReg_lcdc (color : Bool) : ioReg color 0x40 = some .lcdc := by cases color <;> rfl
theorem ioReg_stat (color : Bool) : ioReg color 0x41 = some .stat := by cases color <;> rfl
theorem ioReg_ly (color : Bool) : ioReg color 0x44 = some .ly := by cases color <;> rfl

/-- A byte laid out as `STAT` with new enables takes bits 6 to 3 from the written byte and the others from the old. -/
theorem statByte_enables (v : Byte) (en : BitVec 4) (b : BitVec 1) (m : BitVec 2) :
    BitVec.ofBool true ++ v.extractLsb' 3 4 ++ b ++ m =
      (v &&& 0x78#8) ||| ((BitVec.ofBool true ++ en ++ b ++ m) &&& 0x87#8) := by
  refine BitVec.eq_of_getLsbD_eq fun i hi => ?_
  simp only [BitVec.getLsbD_or, BitVec.getLsbD_and, BitVec.getLsbD_append]
  interval_cases i <;> simp

/-- `STAT` after a write: the written enables between the bits it had (R411). -/
theorem readStat_writeStat (v : Byte) (s : State) :
    readStat (writeStat v s) = (v &&& 0x78) ||| (readStat s &&& 0x87) := statByte_enables v _ _ _

/-- With the display off there is nothing to render (R420). -/
theorem renderSoFar_off {s : State} (h : lcdcBit s 7 = false) : renderSoFar s = s :=
  if_neg (by rw [h, Bool.false_and, Bool.false_and]; decide)

theorem renderSoFar_lcdcBit (s : State) (i : Nat) : lcdcBit (renderSoFar s) i = lcdcBit s i :=
  lcdcBit_of_lcdc (renderSoFar_same s).lcdc i

theorem writeLcdc_off {s : State} {v : Byte} (h : lcdcBit s 7 = true) (hv : v.getLsbD 7 = false) :
    writeLcdc v s = displayOff (setPpu { (renderSoFar s).ppu with lcdc := v } (renderSoFar s)) := by
  have hs : bit (renderSoFar s).ppu.lcdc 7 = true := (renderSoFar_lcdcBit s 7).trans h
  have hv' : bit v 7 = false := hv
  simp only [writeLcdc, hs, hv']

theorem writeLcdc_on {s : State} {v : Byte} (h : lcdcBit s 7 = false) (hv : v.getLsbD 7 = true) :
    writeLcdc v s = displayOn (setPpu { s.ppu with lcdc := v } s) := by
  have hs : bit s.ppu.lcdc 7 = false := h
  have hv' : bit v 7 = true := hv
  simp only [writeLcdc, renderSoFar_off h, hs, hv']

/-- The frame after the display was switched off is filled (R412, R432). -/
theorem displayOff_frame (s : State) :
    ∀ row ∈ (displayOff s).ppu.frame, ∀ px ∈ row, px = fillPixel s.cart.colorMode := by
  intro row hrow px hpx
  obtain ⟨row', -, rfl⟩ := List.mem_map.mp hrow
  obtain ⟨px', -, rfl⟩ := List.mem_map.mp hpx
  rfl

theorem requestIf_requestIf (c d : Bool) (n : Source) (s : State) :
    requestIf c n (requestIf d n s) = requestIf (d || c) n s := by
  cases c <;> cases d
  case true.true =>
    show { s with ifReg := s.ifReg ||| n.mask ||| n.mask } = { s with ifReg := s.ifReg ||| n.mask }
    rw [BitVec.or_assoc, BitVec.or_self]
  all_goals rfl

theorem compareLy_requestIf (c : Bool) (n : Source) (s : State) :
    compareLy (requestIf c n s) =
      requestIf (s.ppu.ly == s.ppu.lyc && s.ppu.statEn.getLsbD 3) .stat (requestIf c n s) := by
  rw [compareLy, statEnable, requestIf_ppu]

/-- Switching on enters mode 2 of line 0 and compares, with one request for both (R403, R407, R412). -/
theorem displayOn_eq (s : State) : displayOn s =
    requestIf (s.ppu.statEn.getLsbD 2 || (s.ppu.lyc == 0 && s.ppu.statEn.getLsbD 3)) .stat
      (setPpu { s.ppu with line := 0, ly := 0, lineCycle := 0, mode := .oamScan, renderedX := 0 } s) := by
  rw [displayOn, enterMode2, compareLy_requestIf, requestIf_requestIf, Bool.beq_comm (a := s.ppu.lyc)]
  rfl

theorem requestIf_eq (c : Bool) (n : Source) (s : State) :
    requestIf c n s = { s with ifReg := s.ifReg ||| if c then n.mask else 0 } := by
  cases c with
  | true => rfl
  | false =>
    show s = { s with ifReg := s.ifReg ||| 0#5 }
    rw [BitVec.or_zero]

/-- Settles O52: the writes of `STAT`, `LCDC` and `LY`. -/
theorem displayRules : Obligations.DisplayRules := by
  intro s v
  have hlcdc : writeByte s 0xFF40 v = .ok (writeLcdc v s) :=
    writeByte_ioPlain v rfl (ioReg_lcdc _) nofun nofun
  refine ⟨fun r hr => ?_, fun hon hv => ?_, fun hoff hv => ?_, writeByte_ioPlain v rfl (ioReg_ly _) nofun nofun⟩
  · refine ⟨writeStat v s, writeByte_ioPlain v rfl (ioReg_stat _) nofun nofun, rfl, ?_⟩
    have hr' : readStat s = r := Except.ok.inj ((readByte_io rfl (ioReg_stat _)).symm.trans hr)
    rw [← hr', ← readStat_writeStat]
    exact readByte_io rfl (ioReg_stat _)
  · obtain ⟨lb, rx, hs, -⟩ := renderSoFar_eq s
    rw [hlcdc, writeLcdc_off hon hv, hs]
    exact ⟨_, rfl, rfl, rfl, rfl, rfl, rfl, displayOff_frame _, rfl, rfl⟩
  · rw [hlcdc, writeLcdc_on hoff hv, displayOn_eq, requestIf_eq]
    exact ⟨_, rfl, rfl, rfl, rfl, rfl, rfl, rfl, rfl⟩

end Sys2Proof.Machine
end

section
/-! SUPPORT. The master register of the sound generator and the trigger of channel 1 (spec/63_apu.md R505, R511,
R522). -/

namespace Sys2Proof.Machine

theorem writeMaster_off {a : Apu} (h : a.power = true) (color : Bool) {v : Byte} (hv : v.getLsbD 7 = false) :
    a.writeMaster color v = a.powerOff color := by
  have hv' : bit v 7 = false := hv
  simp only [Apu.writeMaster, h, hv']

theorem readMaster_powerOff (color : Bool) (a : Apu) : (a.powerOff color).readMaster = 0x70 := by
  simp only [Apu.readMaster, Apu.powerOff, Pulse.powerOff]
  rfl

/-- What each register reads after power off: its bits without storage are 1, all others 0 (R522). -/
def readOff (r : SoundReg) : Byte :=
  match r with
  | .nr10 => 0x80 | .nr11 => 0x3F | .nr12 => 0x00 | .nr13 => 0xFF | .nr14 => 0xBF
  | .nr21 => 0x3F | .nr22 => 0x00 | .nr23 => 0xFF | .nr24 => 0xBF
  | .nr30 => 0x7F | .nr31 => 0xFF | .nr32 => 0x9F | .nr33 => 0xFF | .nr34 => 0xBF
  | .nr41 => 0xFF | .nr42 => 0x00 | .nr43 => 0x00 | .nr44 => 0xBF
  | .nr50 => 0x00 | .nr51 => 0x00

theorem read_powerOff (color : Bool) (a : Apu) (r : SoundReg) : (a.powerOff color).read r = readOff r := by
  cases r <;> dsimp only [Apu.read, Apu.powerOff, Pulse.powerOff] <;> rfl

theorem write_unpowered {a : Apu} (h : a.power = false) (r : SoundReg) (v : Byte) : a.write true r v = a := by
  rw [Apu.write, h]
  rfl

/-- Without a sweep shift the overflow check of a trigger cannot switch the channel off (R505). -/
theorem sweepTrigger_on {w : Sweep} (h : w.shift = 0) (p : Pulse) : (sweepTrigger p w).1.on = p.on := by
  simp only [sweepTrigger, h]
  simp

theorem writeOn_nr14 {v : Byte} (h : v.getLsbD 7 = true) (a : Apu) :
    a.writeOn .nr14 v = { a with ch1 := a.ch1.writeFreqHigh v }.trigger1 := if_pos h

/-- Settles O60: power off register by register, and the trigger of channel 1. -/
theorem soundRules : Obligations.SoundRules := by
  refine ⟨fun color a hp => ?_, fun color a v hp hshift hv => ?_⟩
  · rw [writeMaster_off hp color rfl]
    refine ⟨readMaster_powerOff color a, rfl, rfl, fun p hmem => ?_, fun hc => ?_, fun r v hc => ?_⟩
    · rw [read_powerOff]
      revert p
      decide
    · subst hc
      exact ⟨rfl, rfl, rfl, rfl⟩
    · subst hc
      exact write_unpowered rfl r v
  · rw [Apu.write, if_pos hp, writeOn_nr14 hv]
    exact sweepTrigger_on hshift _

end Sys2Proof.Machine
end

section
/-! SUPPORT. The real-time clock (spec/62_cartridge_mbc_rtc.md R477, R478, R480, R490). -/

namespace Sys2Proof.Machine

/-! ### Time -/

/-- The hours since day 0 (R476). -/
def RtcRegs.hours (r : RtcRegs) : Nat := r.hour + 24 * r.day.toNat

/-- The minutes since day 0. -/
def RtcRegs.minutes (r : RtcRegs) : Nat := r.min + 60 * r.hours

/-- The seconds since day 0. -/
def RtcRegs.total (r : RtcRegs) : Nat := r.sec + 60 * r.minutes

/-- `r'` is one unit later than `r` on a clock of `size` units, which sets `carry` when it wraps (R480). -/
structure OneLater (time : RtcRegs → Nat) (size : Nat) (r r' : RtcRegs) : Prop where
  count : time r' = (time r + 1) % size
  carry : r'.carry = (r.carry || decide (size ≤ time r + 1))

/-- Below the wrap, one unit more sets no carry. -/
theorem OneLater.of_lt {time : RtcRegs → Nat} {size : Nat} {r r' : RtcRegs} (h : time r' = time r + 1)
    (hlt : time r + 1 < size) (hc : r'.carry = r.carry) : OneLater time size r r' :=
  ⟨by rw [h, Nat.mod_eq_of_lt hlt], by rw [hc, decide_eq_false (Nat.not_le.mpr hlt), Bool.or_false]⟩

/-- The last of `n` smaller units carries into the larger one. -/
theorem OneLater.carryInto {time fine : RtcRegs → Nat} {n size : Nat} {r r' : RtcRegs} (h : OneLater time size r r')
    (hn : 0 < n) (hr : fine r + 1 = n * (time r + 1)) (hr' : fine r' = n * time r') : OneLater fine (n * size) r r' where
  count := by rw [hr', h.count, hr, Nat.mul_mod_mul_left]
  carry := by
    rw [h.carry, hr]
    congr 1
    exact decide_eq_decide.mpr (Nat.mul_le_mul_left_iff hn).symm

theorem nextDay_kept (r : RtcRegs) : r.nextDay.sec = r.sec ∧ r.nextDay.min = r.min ∧ r.nextDay.hour = r.hour := by
  unfold RtcRegs.nextDay
  split <;> exact ⟨rfl, rfl, rfl⟩

theorem nextHour_kept (r : RtcRegs) : r.nextHour.sec = r.sec ∧ r.nextHour.min = r.min := by
  obtain ⟨hsec, hmin, -⟩ := nextDay_kept { r with hour := 0 }
  unfold RtcRegs.nextHour
  split
  · exact ⟨hsec, hmin⟩
  · exact ⟨rfl, rfl⟩

theorem nextMinute_kept (r : RtcRegs) : r.nextMinute.sec = r.sec := by
  obtain ⟨hsec, -⟩ := nextHour_kept { r with min := 0 }
  unfold RtcRegs.nextMinute
  split
  · exact hsec
  · rfl

theorem nextDay_later (r : RtcRegs) : OneLater (fun q => q.day.toNat) 512 r r.nextDay := by
  have hlt := r.day.isLt
  unfold RtcRegs.nextDay
  split
  · rename_i h
    have hday : r.day.toNat = 511 := by rw [h]; rfl
    exact ⟨by simp [hday], by simp [hday]⟩
  · rename_i h
    have hday : r.day.toNat ≠ 511 := fun he => h (BitVec.eq_of_toNat_eq he)
    exact .of_lt ((BitVec.toNat_add _ _).trans (Nat.mod_eq_of_lt (show r.day.toNat + 1 < 512 by omega))) (by omega) rfl

theorem nextHour_later {r : RtcRegs} (h : r.hour < 24) : OneLater RtcRegs.hours (24 * 512) r r.nextHour := by
  have hlt := r.day.isLt
  unfold RtcRegs.nextHour
  split
  · obtain ⟨hcount, hcarry⟩ := nextDay_later { r with hour := 0 }
    obtain ⟨-, -, hhour⟩ := nextDay_kept { r with hour := 0 }
    refine OneLater.carryInto (time := fun q => q.day.toNat) ⟨hcount, hcarry⟩ (by decide) ?_ ?_
    · unfold RtcRegs.hours
      omega
    · rw [RtcRegs.hours, hhour, Nat.zero_add]
  · refine .of_lt ?_ ?_ rfl <;> simp only [RtcRegs.hours] <;> omega

theorem hours_lt {r : RtcRegs} (h : r.hour < 24) : r.hours < 24 * 512 := by
  have hlt := r.day.isLt
  unfold RtcRegs.hours
  omega

theorem nextHour_hour_lt {r : RtcRegs} (h : r.hour < 24) : r.nextHour.hour < 24 := by
  unfold RtcRegs.nextHour
  split
  · obtain ⟨-, -, hhour⟩ := nextDay_kept { r with hour := 0 }
    rw [hhour]
    exact Nat.zero_lt_succ _
  · show r.hour + 1 < 24
    omega

theorem nextMinute_later {r : RtcRegs} (hm : r.min < 60) (hh : r.hour < 24) :
    OneLater RtcRegs.minutes (60 * (24 * 512)) r r.nextMinute := by
  have hlt := hours_lt hh
  unfold RtcRegs.nextMinute
  split
  · obtain ⟨hcount, hcarry⟩ := nextHour_later (r := { r with min := 0 }) hh
    obtain ⟨-, hmin⟩ := nextHour_kept { r with min := 0 }
    refine OneLater.carryInto (time := RtcRegs.hours) ⟨hcount, hcarry⟩ (by decide) ?_ ?_
    · unfold RtcRegs.minutes
      omega
    · rw [RtcRegs.minutes, hmin, Nat.zero_add]
  · refine .of_lt ?_ ?_ rfl
    · show r.min + 1 + 60 * r.hours = r.min + 60 * r.hours + 1
      omega
    · unfold RtcRegs.minutes
      omega

theorem minutes_lt {r : RtcRegs} (hm : r.min < 60) (hh : r.hour < 24) : r.minutes < 60 * (24 * 512) := by
  have hlt := hours_lt hh
  unfold RtcRegs.minutes
  omega

theorem nextMinute_inRange {r : RtcRegs} (hm : r.min < 60) (hh : r.hour < 24) :
    r.nextMinute.min < 60 ∧ r.nextMinute.hour < 24 := by
  unfold RtcRegs.nextMinute
  split
  · obtain ⟨-, hmin⟩ := nextHour_kept { r with min := 0 }
    exact ⟨by rw [hmin]; exact Nat.zero_lt_succ _, nextHour_hour_lt (r := { r with min := 0 }) hh⟩
  · refine ⟨?_, hh⟩
    show r.min + 1 < 60
    omega

theorem nextSecond_inRange {r : RtcRegs} (h : r.inRange) : r.nextSecond.inRange := by
  obtain ⟨hs, hm, hh⟩ := h
  unfold RtcRegs.nextSecond
  split
  · have hsec := nextMinute_kept { r with sec := 0 }
    exact ⟨by rw [hsec]; exact Nat.zero_lt_succ _, nextMinute_inRange (r := { r with sec := 0 }) hm hh⟩
  · refine ⟨?_, hm, hh⟩
    show r.sec + 1 < 60
    omega

theorem nextSecond_later {r : RtcRegs} (h : r.inRange) : OneLater RtcRegs.total (60 * (60 * (24 * 512))) r r.nextSecond := by
  obtain ⟨hs, hm, hh⟩ := h
  have hlt := minutes_lt hm hh
  unfold RtcRegs.nextSecond
  split
  · obtain ⟨hcount, hcarry⟩ := nextMinute_later (r := { r with sec := 0 }) hm hh
    have hsec := nextMinute_kept { r with sec := 0 }
    refine OneLater.carryInto (time := RtcRegs.minutes) ⟨hcount, hcarry⟩ (by decide) ?_ ?_
    · unfold RtcRegs.total
      omega
    · rw [RtcRegs.total, hsec, Nat.zero_add]
  · refine .of_lt ?_ ?_ rfl
    · show r.sec + 1 + 60 * r.minutes = r.sec + 60 * r.minutes + 1
      omega
    · unfold RtcRegs.total
      omega

theorem total_lt {r : RtcRegs} (h : r.inRange) : r.total < 86400 * 512 := by
  obtain ⟨hs, hm, hh⟩ := h
  have hlt := minutes_lt hm hh
  unfold RtcRegs.total
  omega

/-- `n` seconds later: at most the first of the wraps sets `carry`, which stays set (R480). -/
theorem seconds_later (n : Nat) {r : RtcRegs} (h : r.inRange) :
    (RtcRegs.seconds n r).total = (r.total + n) % (86400 * 512) ∧
      (RtcRegs.seconds n r).carry = (r.carry || decide (86400 * 512 ≤ r.total + n)) := by
  induction n generalizing r with
  | zero =>
    have hlt := total_lt h
    exact ⟨(Nat.mod_eq_of_lt hlt).symm, by rw [Nat.add_zero, decide_eq_false (Nat.not_le.mpr hlt), Bool.or_false]; rfl⟩
  | succ n ih =>
    have hlt := total_lt h
    obtain ⟨hcount, hcarry⟩ := nextSecond_later h
    obtain ⟨hcount', hcarry'⟩ := ih (nextSecond_inRange h)
    refine ⟨?_, ?_⟩
    · rw [RtcRegs.seconds, hcount', hcount]
      omega
    · rw [RtcRegs.seconds, hcarry', hcarry, hcount, Bool.or_assoc, ← Bool.decide_or]
      congr 1
      exact decide_eq_decide.mpr (by omega)

/-- The same with the units written out (R476). -/
theorem total_eq (r : RtcRegs) : r.total = r.sec + 60 * r.min + 3600 * r.hour + 86400 * r.day.toNat := by
  unfold RtcRegs.total RtcRegs.minutes RtcRegs.hours
  omega

/-! ### The advance at the start of a slice -/

theorem resume_halted {r : Rtc} (h : r.live.halt = true) (now : Nat) : r.resume now = { r with lastWall := now } := by
  unfold Rtc.resume
  rw [if_pos h]

theorem resume_running {r : Rtc} (h : r.live.halt = false) (now : Nat) :
    r.resume now = { r with live := RtcRegs.seconds (now - r.lastWall) r.live, lastWall := now } := by
  unfold Rtc.resume
  rw [if_neg (by rw [h]; decide)]

theorem resume_lastWall (r : Rtc) : r.resume r.lastWall = r := by
  cases h : r.live.halt with
  | true => exact resume_halted h _
  | false =>
    rw [resume_running h, Nat.sub_self]
    rfl

/-! ### The clock registers on the bus -/

theorem region_cartRam {a : Word} (h : 0xA000 ≤ a.toNat) (h' : a.toNat < 0xC000) :
    region a = .cartRam (a.toNat - 0xA000) := by
  rw [region_unechoed (by omega)]
  unfold regionOf
  rw [if_neg (by omega), if_neg (by omega), if_neg (by omega), if_pos h']

theorem readByte_cartRam {a : Word} (s : State) (h : 0xA000 ≤ a.toNat) (h' : a.toNat < 0xC000) :
    readByte s a = .ok (readWindow s (a.toNat - 0xA000)) := by
  rw [readByte, readWith, region_cartRam h h']

theorem writeByte_cartRam {a : Word} (s : State) (v : Byte) (h : 0xA000 ≤ a.toNat) (h' : a.toNat < 0xC000) :
    writeByte s a v = .ok (writeWindow s (a.toNat - 0xA000) v) := by
  rw [writeByte, region_cartRam h h']

/-- A selector of a clock register reaches it, at every offset (R477). -/
theorem window_clock {s : State} (hk : s.cart.kind = .mbc3) (hr : s.cart.hasRtc = true)
    (he : s.mbc.ramEnabled = true) (hsel : 3 < s.mbc.ramSelect.toNat) (off : Nat) :
    window s off = clockWindow s.mbc.ramSelect := by
  rw [window, hk]
  show (if s.mbc.ramEnabled then mbc3Window s off else .sink) = _
  rw [if_pos he, mbc3Window, if_neg (by omega), if_pos hr]

/-- The latch-control range of an `MBC3` with a clock (R465, R478). -/
theorem writeByte_latch {s : State} {a : Word} (v : Byte) (hk : s.cart.kind = .mbc3) (hr : s.cart.hasRtc = true)
    (h : 0x6000 ≤ a.toNat) (h' : a.toNat < 0x8000) :
    writeByte s a v = .ok { s with rtc := writeLatch v s.rtc } := by
  rw [writeByte, region_romBanked (by omega) h']
  show Except.ok (writeController s (0x4000 + (a.toNat - 0x4000)) v) = _
  rw [writeController, if_neg (by omega), if_neg (by omega), if_neg (by omega), if_pos ⟨hk, hr⟩]

/-- A write to a clock register touches the live registers only (R477). -/
theorem writeWindow_setLive {s : State} {off : Nat} (v : Byte)
    (h : window s off ∈ [.seconds, .minutes, .hours, .dayLow, .dayHigh]) :
    ∃ r, writeWindow s off v = setLive r s := by
  have hdrop : ∀ (c : Prop) [Decidable c] (r : RtcRegs), ∃ q, (if c then setLive r s else s) = setLive q s := by
    intro c _ r
    split
    · exact ⟨r, rfl⟩
    · exact ⟨s.rtc.live, rfl⟩
  unfold writeWindow
  simp only [List.mem_cons, List.not_mem_nil, or_false] at h
  obtain h | h | h | h | h := h <;> rw [h]
  · exact hdrop _ _
  · exact hdrop _ _
  · exact hdrop _ _
  · exact ⟨_, rfl⟩
  · exact ⟨_, rfl⟩

/-- What is read is latched: it does not depend on the live registers (R477, R478). -/
theorem readWindow_setLive (r : RtcRegs) (s : State) (off : Nat) : readWindow (setLive r s) off = readWindow s off := rfl

/-- A write of the day's low byte keeps its bit 8 (R477). -/
theorem dayLow_toNat (d : BitVec 9) (v : Byte) :
    ((d &&& 0x100) ||| v.setWidth 9).toNat = 256 * (d.toNat / 256) + v.toNat := by
  have hcat : (d &&& 0x100) ||| v.setWidth 9 = d.extractLsb' 8 1 ++ v := by
    refine BitVec.eq_of_getLsbD_eq fun i hi => ?_
    rw [BitVec.getLsbD_append, BitVec.getLsbD_or, BitVec.getLsbD_and]
    interval_cases i <;> simp
  have hd := d.isLt
  rw [hcat, BitVec.toNat_append, ← Nat.shiftLeft_add_eq_or_of_lt v.isLt, BitVec.extractLsb'_toNat, Nat.shiftLeft_eq,
    Nat.shiftRight_eq_div_pow]
  omega

/-- A write of the day's bit 8 keeps its low byte (R477). -/
theorem dayHigh_toNat (d : BitVec 9) (v : Byte) :
    ((d &&& 0xFF) ||| (if bit v 0 then 0x100 else 0)).toNat = 256 * (v.toNat % 2) + d.toNat % 256 := by
  have hcat : (d &&& 0xFF) ||| (if bit v 0 then 0x100 else 0) = v.extractLsb' 0 1 ++ d.extractLsb' 0 8 := by
    refine BitVec.eq_of_getLsbD_eq fun i hi => ?_
    rw [BitVec.getLsbD_append, BitVec.getLsbD_or, BitVec.getLsbD_and, bit]
    cases hb : v.getLsbD 0 <;> interval_cases i <;> simp_all
  rw [hcat, BitVec.toNat_append, ← Nat.shiftLeft_add_eq_or_of_lt (BitVec.isLt _), BitVec.extractLsb'_toNat,
    BitVec.extractLsb'_toNat, Nat.shiftLeft_eq, Nat.shiftRight_zero, Nat.shiftRight_zero]
  omega

theorem dayHigh_eq (r : RtcRegs) : r.dayHigh = BitVec.ofBool r.carry ++ BitVec.ofBool r.halt ++ 0b00000#5 ++
    BitVec.ofBool (r.day.getLsbD 8) := by
  unfold RtcRegs.dayHigh
  cases r.carry <;> cases r.halt <;> cases r.day.getLsbD 8 <;> rfl

/-! ### The latch -/

theorem writeLatch_latches {r : Rtc} {v : Byte} (h : r.latchPrev = 0x00 ∧ v = 0x01) :
    writeLatch v r = { r with latched := r.live, latchPrev := v } := by
  rw [writeLatch, if_pos h]
  rfl

theorem writeLatch_keeps {r : Rtc} {v : Byte} (h : ¬ (r.latchPrev = 0x00 ∧ v = 0x01)) :
    writeLatch v r = { r with latchPrev := v } := by
  rw [writeLatch, if_neg h]

/-- Settles O59: time by `seconds_later`, the slice by `resume`, and the registers by the window that reaches them. -/
theorem clockRules : Obligations.ClockRules := by
  refine ⟨fun n r h => ?_, fun now r _ => ⟨fun h => resume_halted h now, fun h => resume_running h now⟩,
    resume_lastWall, fun _ _ => rfl, fun s a v hk hr => ⟨fun h h' he => ?_, writeByte_latch v hk hr⟩,
    fun s off v => ⟨fun h => ?seconds, fun h => ?minutes, fun h => ?hours, fun h => ?_, fun h => ?_, fun h => ?_⟩,
    fun r v => ?_⟩
  case seconds | minutes | hours =>
    exact ⟨by rw [readWindow, h], fun hv => by rw [writeWindow, h]; exact if_pos hv,
      fun hv => by rw [writeWindow, h]; exact if_neg (Nat.not_lt.mpr hv)⟩
  · simp only [← total_eq]
    exact seconds_later n h
  · have hw : ∀ n, s.mbc.ramSelect = n → 3 < n.toNat → window s (a.toNat - 0xA000) = clockWindow n := by
      rintro n rfl hn
      exact window_clock hk hr he hn _
    exact ⟨readByte_cartRam s h h', writeByte_cartRam s v h h', fun hs => hw _ hs (by decide),
      fun hs => hw _ hs (by decide), fun hs => hw _ hs (by decide), fun hs => hw _ hs (by decide),
      fun hs => hw _ hs (by decide)⟩
  · refine ⟨?_, _, by rw [writeWindow, h]; rfl, dayLow_toNat _ v⟩
    rw [readWindow, h]
    exact BitVec.extractLsb'_toNat ..
  · exact ⟨by rw [readWindow, h]; exact dayHigh_eq _, _, by rw [writeWindow, h]; rfl, dayHigh_toNat _ v⟩
  · obtain ⟨r, hr⟩ := writeWindow_setLive v h
    rw [hr, readWindow_setLive]
  · by_cases h : r.latchPrev = 0x00 ∧ v = 0x01
    · rw [writeLatch_latches h]
      exact ⟨fun _ => rfl, fun hn => absurd h hn, rfl, rfl⟩
    · rw [writeLatch_keeps h]
      exact ⟨fun hc => absurd hc h, fun _ => rfl, rfl, rfl⟩

end Sys2Proof.Machine
end
